-- ==== Sys2Proof/Word.lean ====
section
/-! DEFINITION. The widths the spec gives the machine's values (10 R20, R21, R25, R29; 30 R71) and the
record of the six fields of an instruction word. -/

namespace Sys2Proof

/-- A memory byte, a general register, a timer, or the immediate `nn`: 8 bits (00 R8). -/
abbrev Byte := BitVec 8

/-- An instruction word: 16 bits (30 R70). -/
abbrev Word := BitVec 16

/-- `pc`, `I` and a stack entry: 16 bits each (00 R8, PC_WIDTH and INDEX_WIDTH). -/
abbrev Addr := BitVec 16

/-- A register number, the immediate `n`, a primary nibble: 4 bits (30 R71). -/
abbrev Nibble := BitVec 4

/-- The address immediate `nnn`: 12 bits (30 R71). -/
abbrev Imm12 := BitVec 12

/-- `hi ++ lo` of two nibbles (00 R10). -/
def joinNibbles (hi lo : Nibble) : Byte :=
  (hi ++ lo).cast rfl

/-- `hi ++ lo` of a nibble and a byte (00 R10). -/
def joinNibbleByte (hi : Nibble) (lo : Byte) : Imm12 :=
  (hi ++ lo).cast rfl

/-- `hi ++ lo` of two bytes (00 R10). -/
def joinBytes (hi lo : Byte) : Word :=
  (hi ++ lo).cast rfl

/-- `hi ++ lo` of a nibble and twelve bits (00 R10). -/
def joinNibbleImm (hi : Nibble) (lo : Imm12) : Word :=
  (hi ++ lo).cast rfl

/-- The six fields the decoder extracts from every word (30 R71).  They overlap, so not every record is the
record of a word: `Fields.wellFormed` (WellFormed.lean) says which are. -/
structure Fields where
  op  : Nibble
  x   : Nibble
  y   : Nibble
  n   : Nibble
  nn  : Byte
  nnn : Imm12
deriving DecidableEq, Repr

end Sys2Proof
end

