-- ==== Sys2Proof/Config.lean ====
section
/-! DEFINITION. The parameters of the core (00 R8) and the model's free values. -/

namespace Sys2Proof

/-- The parameters of 00 R8 that the hardware does not fix.  `fontBase` ranges over 0..432, which is the
constraint `0 <= FONT_BASE` and `FONT_BASE + 80 <= 0x200`.  `State` holds one of these and no step changes it
(log entry 1). -/
structure Config where
  /-- STACK_DEPTH, the most entries the call stack holds; at least 1 (`Config.wellFormed`). -/
  stackDepth : Nat
  /-- FONT_BASE, the source's `font_base_offset`. -/
  fontBase : Fin 433
  /-- FONT_IMAGE, the 80 bytes reset places at FONT_BASE. -/
  fontImage : Vector Byte 80
deriving DecidableEq, Repr

/-- The default FONT_IMAGE: sixteen glyphs of five bytes (70 R263). -/
def Config.defaultFontImage : Vector Byte 80 :=
  #v[0xF0, 0x90, 0x90, 0x90, 0xF0,  0x20, 0x60, 0x20, 0x20, 0x70,
     0xF0, 0x10, 0xF0, 0x80, 0xF0,  0xF0, 0x10, 0xF0, 0x10, 0xF0,
     0x90, 0x90, 0xF0, 0x10, 0x10,  0xF0, 0x80, 0xF0, 0x10, 0xF0,
     0xF0, 0x80, 0xF0, 0x90, 0xF0,  0xF0, 0x10, 0x20, 0x40, 0x40,
     0xF0, 0x90, 0xF0, 0x90, 0xF0,  0xF0, 0x90, 0xF0, 0x10, 0xF0,
     0xF0, 0x90, 0xF0, 0x90, 0x90,  0xE0, 0x90, 0xE0, 0x90, 0xE0,
     0xF0, 0x80, 0x80, 0x80, 0xF0,  0xE0, 0x90, 0x90, 0x90, 0xE0,
     0xF0, 0x80, 0xF0, 0x80, 0xF0,  0xF0, 0x80, 0xF0, 0x80, 0x80]

/-- FREE VALUE: the FONT_BASE of the machine `State.reset` stands for.  The spec leaves it OPEN (00 R8, 92 D4):
nothing constrains it but its range (log entry 2). -/
opaque Config.openFontBase : Fin 433

/-- FREE VALUE: the random byte of the `k`-th draw, under no law (42 R153, 40 R111, 92 D16).  `State.draws` is the
`k` of the next draw (log entry 3). -/
opaque Config.randomByte : Nat → Byte

/-- FREE VALUE: whether the textual decoder takes lower-case hexadecimal digits (30 R94: "not said"; log entry 15). -/
opaque Config.lowerCaseHexAccepted : Bool

/-- The parameters of the machine `State.reset` stands for: the defaults of 00 R8, and an open FONT_BASE. -/
def Config.default : Config where
  stackDepth := 16
  fontBase := Config.openFontBase
  fontImage := Config.defaultFontImage

end Sys2Proof
end

