-- ==== Sys2Proof/Syntax.lean ====
section
/-! DEFINITION. The instructions: one constructor per row of spec/opcode_table.json (30 R80), in the table's order.
Every operand's type is its field's width, so an operand out of its field's range cannot be written (30 R74, 10 R21). -/

namespace Sys2Proof

/-- The 34 operations of 30 R80.  The comment after each is its label there. -/
inductive Instr where
  | cls                                -- CLS
  | ret                                -- RET
  | jp (nnn : Imm12)                   -- JP nnn
  | call (nnn : Imm12)                 -- CALL nnn
  | seImm (x : Nibble) (nn : Byte)     -- SE Vx,nn
  | sneImm (x : Nibble) (nn : Byte)    -- SNE Vx,nn
  | seReg (x y : Nibble)               -- SE Vx,Vy
  | ldImm (x : Nibble) (nn : Byte)     -- LD Vx,nn
  | addImm (x : Nibble) (nn : Byte)    -- ADD Vx,nn
  | ldReg (x y : Nibble)               -- LD Vx,Vy
  | orReg (x y : Nibble)               -- OR Vx,Vy
  | andReg (x y : Nibble)              -- AND Vx,Vy
  | xorReg (x y : Nibble)              -- XOR Vx,Vy
  | addReg (x y : Nibble)              -- ADD Vx,Vy
  | sub (x y : Nibble)                 -- SUB Vx,Vy
  | shr (x : Nibble)                   -- SHR Vx
  | subn (x y : Nibble)                -- SUBN Vx,Vy
  | shl (x : Nibble)                   -- SHL Vx
  | sneReg (x y : Nibble)              -- SNE Vx,Vy
  | ldI (nnn : Imm12)                  -- LD I,nnn
  | jpV0 (nnn : Imm12)                 -- JP V0,nnn
  | rnd (x : Nibble) (nn : Byte)       -- RND Vx,nn
  | drw (x y n : Nibble)               -- DRW Vx,Vy,n
  | skp (x : Nibble)                   -- SKP Vx
  | sknp (x : Nibble)                  -- SKNP Vx
  | ldVxDT (x : Nibble)                -- LD Vx,DT
  | ldVxK (x : Nibble)                 -- LD Vx,K
  | ldDTVx (x : Nibble)                -- LD DT,Vx
  | ldSTVx (x : Nibble)                -- LD ST,Vx
  | addI (x : Nibble)                  -- ADD I,Vx
  | ldF (x : Nibble)                   -- LD F,Vx
  | ldB (x : Nibble)                   -- LD B,Vx
  | storeRegs (x : Nibble)             -- LD [I],Vx
  | loadRegs (x : Nibble)              -- LD Vx,[I]
deriving DecidableEq, Repr

end Sys2Proof
end

