-- ==== Sys2Proof/WellFormed.lean ====
section
/-! DEFINITION. The well-formedness checks: of a record of fields (30 R71) and of the parameters (00 R8).
An `Instr` needs none: its operands' types are the widths of their fields, so every term is an instruction some word
encodes (obligation DecodeEncodeRoundTrip). -/

namespace Sys2Proof

/-- The fields overlap: `nn = y ++ n` and `nnn = x ++ y ++ n` (30 R71).  True of exactly the records that are the
fields of a word. -/
def Fields.wellFormed (f : Fields) : Bool :=
  f.nn == joinNibbles f.y f.n && f.nnn == joinNibbleByte f.x (joinNibbles f.y f.n)

/-- The parameters' one constraint that their types do not already state: STACK_DEPTH is at least 1 (00 R8). -/
def Config.wellFormed (c : Config) : Bool :=
  1 ≤ c.stackDepth

end Sys2Proof
end

