-- ==== Sys2Proof/Decode.lean ====
section
/-! DEFINITION. The decoder (30 R71, R72), the first half of dispatch, which chooses the operation (30 R75, R76, R80;
40 R107), the opcode map as data, and the encoder. -/

namespace Sys2Proof

/-- The six fields of a word, extracted all at once, for every word (30 R71, R72). -/
def Fields.ofWord (w : Word) : Fields where
  op  := w.extractLsb' 12 4
  x   := w.extractLsb' 8 4
  y   := w.extractLsb' 4 4
  n   := w.extractLsb' 0 4
  nn  := w.extractLsb' 0 8
  nnn := w.extractLsb' 0 12

/-- A word of a sub-dispatch group whose secondary discriminant matches no operation (30 R85): its group (the primary
nibble) and the discriminant's value (`nn`, or `n` in group 8). -/
structure Unknown where
  group        : Nibble
  discriminant : Byte
deriving DecidableEq, Repr

/-- Group 0x0, on `nn`; `x` is ignored (30 R76, R78; 40 R107). -/
def selectGroup0 (f : Fields) : Except Unknown Instr :=
  if f.nn = 0xE0 then .ok .cls
  else if f.nn = 0xEE then .ok .ret
  else .error ⟨0x0, f.nn⟩

/-- Group 0x8, on `n` (30 R76; 40 R107); `y` is ignored by the shifts (30 R78). -/
def selectGroup8 (f : Fields) : Except Unknown Instr :=
  if f.n = 0x0 then .ok (.ldReg f.x f.y)
  else if f.n = 0x1 then .ok (.orReg f.x f.y)
  else if f.n = 0x2 then .ok (.andReg f.x f.y)
  else if f.n = 0x3 then .ok (.xorReg f.x f.y)
  else if f.n = 0x4 then .ok (.addReg f.x f.y)
  else if f.n = 0x5 then .ok (.sub f.x f.y)
  else if f.n = 0x6 then .ok (.shr f.x)
  else if f.n = 0x7 then .ok (.subn f.x f.y)
  else if f.n = 0xE then .ok (.shl f.x)
  else .error ⟨0x8, f.n.setWidth 8⟩

/-- Group 0xE, on `nn` (30 R76; 40 R107). -/
def selectGroupE (f : Fields) : Except Unknown Instr :=
  if f.nn = 0x9E then .ok (.skp f.x)
  else if f.nn = 0xA1 then .ok (.sknp f.x)
  else .error ⟨0xE, f.nn⟩

/-- Group 0xF, on `nn` (30 R76; 40 R107). -/
def selectGroupF (f : Fields) : Except Unknown Instr :=
  if f.nn = 0x07 then .ok (.ldVxDT f.x)
  else if f.nn = 0x0A then .ok (.ldVxK f.x)
  else if f.nn = 0x15 then .ok (.ldDTVx f.x)
  else if f.nn = 0x18 then .ok (.ldSTVx f.x)
  else if f.nn = 0x1E then .ok (.addI f.x)
  else if f.nn = 0x29 then .ok (.ldF f.x)
  else if f.nn = 0x33 then .ok (.ldB f.x)
  else if f.nn = 0x55 then .ok (.storeRegs f.x)
  else if f.nn = 0x65 then .ok (.loadRegs f.x)
  else .error ⟨0xF, f.nn⟩

/-- The two-level selection of 40 R107: by the primary nibble, then in groups 0x0, 0x8, 0xE, 0xF by the secondary
discriminant.  There is no unknown primary nibble (30 R86): 0xF is what is left after 0x0 to 0xE. -/
def Fields.select (f : Fields) : Except Unknown Instr :=
  if f.op = 0x0 then selectGroup0 f
  else if f.op = 0x1 then .ok (.jp f.nnn)
  else if f.op = 0x2 then .ok (.call f.nnn)
  else if f.op = 0x3 then .ok (.seImm f.x f.nn)
  else if f.op = 0x4 then .ok (.sneImm f.x f.nn)
  else if f.op = 0x5 then .ok (.seReg f.x f.y)
  else if f.op = 0x6 then .ok (.ldImm f.x f.nn)
  else if f.op = 0x7 then .ok (.addImm f.x f.nn)
  else if f.op = 0x8 then selectGroup8 f
  else if f.op = 0x9 then .ok (.sneReg f.x f.y)
  else if f.op = 0xA then .ok (.ldI f.nnn)
  else if f.op = 0xB then .ok (.jpV0 f.nnn)
  else if f.op = 0xC then .ok (.rnd f.x f.nn)
  else if f.op = 0xD then .ok (.drw f.x f.y f.n)
  else if f.op = 0xE then selectGroupE f
  else selectGroupF f

/-- The operation a word selects, or its unknown secondary discriminant: total on all 65536 words (30 R72, R87). -/
def decodeWord (w : Word) : Except Unknown Instr :=
  (Fields.ofWord w).select

/-- Why bytes give no instruction. -/
inductive DecodeReject where
  /-- fewer than the two bytes of a word (30 R70) -/
  | truncated (available : Nat)
  /-- a word with an unknown secondary discriminant (30 R85): a diagnosed no-op when it is executed -/
  | unknownSecondary (u : Unknown)
deriving DecidableEq, Repr

/-- A word from its two bytes, big-endian: the byte at the lower address is the high one (20 R53). -/
def wordOfBytes (hi lo : Byte) : Word :=
  joinBytes hi lo

/-- The high byte of a word, the one at the lower address (20 R53). -/
def highByte (w : Word) : Byte :=
  w.extractLsb' 8 8

/-- The low byte of a word, the one at the higher address (20 R53). -/
def lowByte (w : Word) : Byte :=
  w.extractLsb' 0 8

/-- The first instruction of a sequence of bytes, with the bytes after it; total, rejecting by name. -/
def decodeBytes : List Byte → Except DecodeReject (Instr × List Byte)
  | hi :: lo :: rest =>
    match decodeWord (wordOfBytes hi lo) with
    | .ok i => .ok (i, rest)
    | .error u => .error (.unknownSecondary u)
  | short => .error (.truncated short.length)

/-- The instruction of a table word: `w` in `nbits` bits, bit 0 the least significant of the first (and only) word,
laid out big-endian and read by `decodeBytes`. -/
def decodeTableWord (nbits w : Nat) : Option Instr :=
  let word := BitVec.ofNat 16 (w % 2 ^ nbits)
  match decodeBytes [highByte word, lowByte word] with
  | .ok (i, _) => some i
  | .error _ => none

/-! ### The opcode map as data, and the encoder -/

/-- Format A: `op nnn` (30 R73). -/
def wordA (op : Nibble) (nnn : Imm12) : Word :=
  joinNibbleImm op nnn

/-- Formats XI and XS: `op x nn` (30 R73); Z with `x` = 0. -/
def wordXI (op x : Nibble) (nn : Byte) : Word :=
  joinNibbleImm op (joinNibbleByte x nn)

/-- Formats XY, XYS and XYN: `op x y n` (30 R73). -/
def wordXYN (op x y n : Nibble) : Word :=
  joinNibbleImm op (joinNibbleByte x (joinNibbles y n))

/-- The `match` column of 30 R80. -/
def Instr.matchBits : Instr → Word
  | .cls => 0x00E0
  | .ret => 0x00EE
  | .jp _ => 0x1000
  | .call _ => 0x2000
  | .seImm _ _ => 0x3000
  | .sneImm _ _ => 0x4000
  | .seReg _ _ => 0x5000
  | .ldImm _ _ => 0x6000
  | .addImm _ _ => 0x7000
  | .ldReg _ _ => 0x8000
  | .orReg _ _ => 0x8001
  | .andReg _ _ => 0x8002
  | .xorReg _ _ => 0x8003
  | .addReg _ _ => 0x8004
  | .sub _ _ => 0x8005
  | .shr _ => 0x8006
  | .subn _ _ => 0x8007
  | .shl _ => 0x800E
  | .sneReg _ _ => 0x9000
  | .ldI _ => 0xA000
  | .jpV0 _ => 0xB000
  | .rnd _ _ => 0xC000
  | .drw _ _ _ => 0xD000
  | .skp _ => 0xE09E
  | .sknp _ => 0xE0A1
  | .ldVxDT _ => 0xF007
  | .ldVxK _ => 0xF00A
  | .ldDTVx _ => 0xF015
  | .ldSTVx _ => 0xF018
  | .addI _ => 0xF01E
  | .ldF _ => 0xF029
  | .ldB _ => 0xF033
  | .storeRegs _ => 0xF055
  | .loadRegs _ => 0xF065

/-- The `mask` column of 30 R80. -/
def Instr.mask : Instr → Word
  | .cls | .ret => 0xF0FF
  | .jp _ | .call _ | .seImm _ _ | .sneImm _ _ | .seReg _ _ | .ldImm _ _ | .addImm _ _ => 0xF000
  | .ldReg _ _ | .orReg _ _ | .andReg _ _ | .xorReg _ _ | .addReg _ _ | .sub _ _ | .shr _
  | .subn _ _ | .shl _ => 0xF00F
  | .sneReg _ _ | .ldI _ | .jpV0 _ | .rnd _ _ | .drw _ _ _ => 0xF000
  | .skp _ | .sknp _ | .ldVxDT _ | .ldVxK _ | .ldDTVx _ | .ldSTVx _ | .addI _ | .ldF _ | .ldB _
  | .storeRegs _ | .loadRegs _ => 0xF0FF

/-- The bits of a word the operation ignores (30 R78). -/
def Instr.ignoredBits : Instr → Word
  | .cls | .ret => 0x0F00
  | .seReg _ _ | .sneReg _ _ => 0x000F
  | .shr _ | .shl _ => 0x00F0
  | .jp _ | .call _ | .seImm _ _ | .sneImm _ _ | .ldImm _ _ | .addImm _ _ | .ldReg _ _ | .orReg _ _
  | .andReg _ _ | .xorReg _ _ | .addReg _ _ | .sub _ _ | .subn _ _ | .ldI _ | .jpV0 _ | .rnd _ _
  | .drw _ _ _ | .skp _ | .sknp _ | .ldVxDT _ | .ldVxK _ | .ldDTVx _ | .ldSTVx _ | .addI _ | .ldF _
  | .ldB _ | .storeRegs _ | .loadRegs _ => 0x0000

/-- The canonical word of an instruction: the encoding line of its rule, with the ignored nibbles 0 (30 R78, R80). -/
def encode : Instr → Word
  | .cls => wordXI 0x0 0 0xE0
  | .ret => wordXI 0x0 0 0xEE
  | .jp nnn => wordA 0x1 nnn
  | .call nnn => wordA 0x2 nnn
  | .seImm x nn => wordXI 0x3 x nn
  | .sneImm x nn => wordXI 0x4 x nn
  | .seReg x y => wordXYN 0x5 x y 0
  | .ldImm x nn => wordXI 0x6 x nn
  | .addImm x nn => wordXI 0x7 x nn
  | .ldReg x y => wordXYN 0x8 x y 0x0
  | .orReg x y => wordXYN 0x8 x y 0x1
  | .andReg x y => wordXYN 0x8 x y 0x2
  | .xorReg x y => wordXYN 0x8 x y 0x3
  | .addReg x y => wordXYN 0x8 x y 0x4
  | .sub x y => wordXYN 0x8 x y 0x5
  | .shr x => wordXYN 0x8 x 0 0x6
  | .subn x y => wordXYN 0x8 x y 0x7
  | .shl x => wordXYN 0x8 x 0 0xE
  | .sneReg x y => wordXYN 0x9 x y 0
  | .ldI nnn => wordA 0xA nnn
  | .jpV0 nnn => wordA 0xB nnn
  | .rnd x nn => wordXI 0xC x nn
  | .drw x y n => wordXYN 0xD x y n
  | .skp x => wordXI 0xE x 0x9E
  | .sknp x => wordXI 0xE x 0xA1
  | .ldVxDT x => wordXI 0xF x 0x07
  | .ldVxK x => wordXI 0xF x 0x0A
  | .ldDTVx x => wordXI 0xF x 0x15
  | .ldSTVx x => wordXI 0xF x 0x18
  | .addI x => wordXI 0xF x 0x1E
  | .ldF x => wordXI 0xF x 0x29
  | .ldB x => wordXI 0xF x 0x33
  | .storeRegs x => wordXI 0xF x 0x55
  | .loadRegs x => wordXI 0xF x 0x65

/-- The two bytes an instruction is stored as, lowest address first (20 R53). -/
def encodeBytes (i : Instr) : List Byte :=
  [highByte (encode i), lowByte (encode i)]

end Sys2Proof
end

