-- ==== Sys2Proof/Machine/State.lean ====
section
/-! DEFINITION. The state of the core (10 R20), the records its fault latch and diagnostic log hold (60 R231), the
reasons a step can stop, and the state after reset (10 R45). -/

namespace Sys2Proof.Machine

open Sys2Proof

/-- Where in the tick an out-of-bounds access was found (60 R231). -/
inductive Stage where
  | fetch
  | execute
deriving DecidableEq, Repr

/-- One record of a fatal fault: its code and what it records (10 R36; 60 R231, R240).  `pc` is the address `a` the
faulting instruction was, or would have been, fetched from (60 R241). -/
inductive FaultRecord where
  /-- RET with `SP` = 0 (60 R232) -/
  | stackUnderflow (pc : Addr)
  /-- CALL with `SP` = STACK_DEPTH (60 R233) -/
  | stackOverflow (pc : Addr)
  /-- a byte address of the access is above 0xFFF; `addr` is the highest offending address, an unbounded integer
  (60 R234; 20 R52) -/
  | outOfBoundsMemoryAccess (stage : Stage) (pc : Addr) (addr : Nat)
  /-- `pc` odd and `pc + 1 <= 0xFFF` at fetch (60 R235) -/
  | misalignedFetch (pc : Addr)
  /-- SKP or SKNP with `V[x] > 15` (60 R236) -/
  | keyIndexOutOfRange (pc : Addr) (key : Byte)
deriving DecidableEq, Repr

/-- One record of the diagnostic channel (60 R238): the kind (there is only this one), the word, the address it was
fetched from, the group and the discriminant's value. -/
inductive DiagRecord where
  | unknownSecondaryOpcode (word : Word) (pc : Addr) (group : Nibble) (discriminant : Byte)
deriving DecidableEq, Repr

/-- Why a step stops the machine. -/
inductive Fault where
  /-- Raised by `step`, and by nothing else, on a state whose fault latch is set: the core has no further step until
  Reset (40 R102; 60 R243; 92 D32).  Safe: the spec defines no tick there.  A fatal fault itself is no stop: the tick
  that raises it answers a next state with the latch set (60 R240; log entry 4). -/
  | sessionOver (r : FaultRecord)
deriving DecidableEq, Repr

/-- Why a step has no meaning. -/
inductive Refusal where
  /-- Raised by an arm of `exec` whose instruction has no meaning yet; no arm is such an arm now.  Safe: nothing can be
  proved of the instruction. -/
  | notModelled (mnemonic : String)
deriving DecidableEq, Repr

/-- Memory: the cells that differ from the image reset makes of an empty ROM (`Memory.resetByte`, Ops.lean), strictly
rising in address; `Memory.wf` states the form. -/
abbrev Memory := List Host.Cell

/-- The display: cell `cx + cy*64` is column `cx` of row `cy`; true is ON (10 R33). -/
abbrev Display := Vector Bool 2048

/-- The whole state of the core (10 R20), with the two fields that are the model's own at the end. -/
structure State where
  /-- `V[0..15]` (10 R21) -/
  v : Vector Byte 16
  /-- the program counter (10 R25) -/
  pc : Addr
  /-- `I` (10 R29) -/
  index : Addr
  /-- `DT`, the delay timer (10 R30) -/
  dt : Byte
  /-- `ST`, the sound timer (10 R30) -/
  st : Byte
  /-- the entries of the call stack, the newest first: `SP` is its length and `Stack[SP-1]` its head (10 R31; log
  entry 6) -/
  stack : List Addr
  /-- `Mem[0..4095]` (10 R35; log entry 7) -/
  mem : Memory
  /-- `Disp[0..2047]` (10 R33) -/
  disp : Display
  /-- `Key[0..15]`; true is pressed (10 R34) -/
  keys : Vector Bool 16
  /-- the fault latch (10 R36) -/
  fault : Option FaultRecord
  /-- the diagnostic log, oldest record first (10 R37) -/
  diagLog : List DiagRecord
  /-- THE MODEL'S OWN: how many random bytes RND has consumed (42 R153; log entry 3) -/
  draws : Nat
  /-- THE MODEL'S OWN: the parameters the machine was constructed with (00 R8; 10 R39; log entry 1) -/
  config : Config
deriving DecidableEq, Repr

/-- What one tick, one operation, answers. -/
abbrev Result := Host.Outcome State Fault Refusal

/-- The machine right after `Reset` with an empty ROM (10 R45; 70 R260 to R264).  Memory lists nothing: an unlisted byte
reads as what reset put there. -/
def State.reset : State where
  v := Vector.replicate 16 0
  pc := 0x200
  index := 0
  dt := 0
  st := 0
  stack := []
  mem := []
  disp := Vector.replicate 2048 false
  keys := Vector.replicate 16 false
  fault := none
  diagLog := []
  draws := 0
  config := Config.default

end Sys2Proof.Machine
end

