-- ==== Sys2Proof/Machine/Ops.lean ====
section
/-! DEFINITION. The named operations over memory, registers, stack, fault latch and diagnostic log, and the fetch. -/

namespace Sys2Proof.Machine

open Sys2Proof

/-! ### Memory (20 R50 to R62) -/

/-- MEM_SIZE: the addresses are 0 to `memSize - 1` (00 R8; 20 R50). -/
def memSize : Nat := 4096

/-- LOAD_BASE: where the ROM is copied, and the reset value of `pc` (00 R8; 20 R51). -/
def loadBase : Nat := 0x200

/-- What an address no cell lists reads as: the contents reset gives it, FONT_IMAGE at FONT_BASE and 0 elsewhere
(70 R262 steps 1 and 2).  The font lies below LOAD_BASE, which is asked first. -/
def Memory.resetByte (c : Config) (a : Nat) : Byte :=
  if loadBase ≤ a then 0
  else if c.fontBase.val ≤ a then c.fontImage[a - c.fontBase.val]?.getD 0
  else 0

/-- One byte: the last value written to it, or its reset value (20 R59). -/
def Memory.read (c : Config) (m : Memory) (a : Nat) : Byte :=
  match m with
  | [] => resetByte c a
  | (k, b) :: rest => if a = k then b else Memory.read c rest a

/-- Put one byte, keeping the canonical form: writing the byte's reset value removes its cell. -/
def Memory.write (c : Config) (m : Memory) (a : Nat) (b : Byte) : Memory :=
  match m with
  | [] => if b = resetByte c a then [] else [(a, b)]
  | (k, b') :: rest =>
    if a = k then (if b = resetByte c a then rest else (a, b) :: rest)
    else if a < k then (if b = resetByte c a then (k, b') :: rest else (a, b) :: (k, b') :: rest)
    else (k, b') :: Memory.write c rest a b

/-- Put bytes at ascending addresses from `a`, in the order listed (20 R54). -/
def Memory.writeBytes (c : Config) (m : Memory) (a : Nat) : List Byte → Memory
  | [] => m
  | b :: bs => Memory.writeBytes c (Memory.write c m a b) (a + 1) bs

/-- The canonical form: addresses strictly rising and inside memory, no cell equal to its reset value. -/
def Memory.wf (c : Config) (m : Memory) : Bool :=
  decide (m.Pairwise fun p q => p.1 < q.1) &&
    m.all fun p => decide (p.1 < memSize) && !(p.2 == resetByte c p.1)

/-! ### One setter per field, so that later proofs cite its lemmas (Laws/State.lean) -/

/-- Write general register `x` (10 R21). -/
def State.setReg (s : State) (x : Nibble) (b : Byte) : State :=
  { s with v := s.v.set x.toNat b (by have := x.isLt; omega) }

def State.setPc (s : State) (a : Addr) : State := { s with pc := a }
def State.setIndex (s : State) (a : Addr) : State := { s with index := a }
def State.setDT (s : State) (b : Byte) : State := { s with dt := b }
def State.setST (s : State) (b : Byte) : State := { s with st := b }
def State.setStack (s : State) (es : List Addr) : State := { s with stack := es }
def State.setMem (s : State) (m : Memory) : State := { s with mem := m }
def State.setDisp (s : State) (d : Display) : State := { s with disp := d }
def State.setRegs (s : State) (v : Vector Byte 16) : State := { s with v := v }
def State.setFault (s : State) (r : FaultRecord) : State := { s with fault := some r }

/-- Append one record to the diagnostic log: `Diag(kind, info)` (60 R238). -/
def State.addDiag (s : State) (d : DiagRecord) : State := { s with diagLog := s.diagLog ++ [d] }

/-- One more random byte has been consumed (42 R153: one per RND executed and none otherwise). -/
def State.countDraw (s : State) : State := { s with draws := s.draws + 1 }

/-! ### Reading -/

/-- Read general register `x`: every register number names a register (10 R21). -/
def State.getReg (s : State) (x : Nibble) : Byte :=
  s.v[x.toNat]'(by have := x.isLt; omega)

/-- Read one byte of memory. -/
def State.byteAt (s : State) (a : Nat) : Byte :=
  Memory.read s.config s.mem a

/-- Store bytes at ascending addresses from `a`.  The caller has checked the whole range (20 R52). -/
def State.storeBytes (s : State) (a : Nat) (bs : List Byte) : State :=
  s.setMem (Memory.writeBytes s.config s.mem a bs)

/-- `Key[k]`, for `k` in 0..15 (10 R34). -/
def State.keyDown (s : State) (k : Nat) : Bool :=
  s.keys[k]?.getD false

/-- `SP`, the number of entries held (10 R31). -/
def State.sp (s : State) : Nat :=
  s.stack.length

/-! ### The program counter -/

/-- The address `a` the executing word was fetched from: on entry to an operation `pc` holds `a + 2` (40 R105; log
entry 5). -/
def State.instrAddr (s : State) : Addr :=
  s.pc - 2

/-- The next word's address: the advance after a fetch (40 R105), and a taken skip's second advance (41 R124). -/
def State.advance (s : State) : State :=
  s.setPc (s.pc + 2)

/-- `pc <- pc - 2`, back to the executing word (45 R212). -/
def State.rewind (s : State) : State :=
  s.setPc (s.pc - 2)

/-- Skip the next word when the condition holds (41 R124 to R127; 45 R210, R211). -/
def State.skipIf (s : State) (condition : Bool) : State :=
  if condition then s.advance else s

/-! ### Taking a fatal fault, and the diagnosed no-op -/

/-- `raise F(info)`: nothing after it happens, the latch takes the record, and control goes back to the host (60 R240,
R241).  There is no return from a fault (60 R243): only `State.construct` (Events.lean) gives a machine that ticks
again. -/
def raise (r : FaultRecord) (s : State) : Result :=
  .next (s.setFault r)

/-- What the cycle call returns for a tick that ended in `t`: `none` is `ok`, a record is the failure result (40 R109;
60 R240).  A tick starts with an empty latch, so the latch after it is the tick's own result. -/
def tickResult (t : State) : Option FaultRecord :=
  t.fault

/-- The diagnosed no-op: one record in the log and nothing else; `pc` stays at the next word (40 R108; 30 R85). -/
def execUnknown (w : Word) (u : Unknown) (s : State) : Result :=
  .next (s.addDiag (.unknownSecondaryOpcode w s.instrAddr u.group u.discriminant))

/-! ### The stack -/

/-- `Push(v)`: StackOverflow when the stack is full, before anything is written (10 R31; 60 R233). -/
def State.push (s : State) (a : Addr) : Except FaultRecord State :=
  if s.config.stackDepth ≤ s.sp then .error (.stackOverflow s.instrAddr)
  else .ok (s.setStack (a :: s.stack))

/-- `Pop()`: StackUnderflow when the stack is empty, else the newest entry, which is removed (10 R32; 60 R232). -/
def State.pop (s : State) : Except FaultRecord (Addr × State) :=
  match s.stack with
  | [] => .error (.stackUnderflow s.instrAddr)
  | a :: rest => .ok (a, s.setStack rest)

/-! ### Fetch -/

/-- The word at a byte address, big-endian: `Mem[a] ++ Mem[a+1]` (20 R53). -/
def State.wordAt (s : State) (a : Nat) : Word :=
  wordOfBytes (s.byteAt a) (s.byteAt (a + 1))

/-- Fetch: both addresses in bounds, else OutOfBoundsMemoryAccess; then `pc` even, else MisalignedFetch; then the word
(40 R100, R103, R104; 60 R242). -/
def State.fetch (s : State) : Except FaultRecord Word :=
  if memSize ≤ s.pc.toNat + 1 then .error (.outOfBoundsMemoryAccess .fetch s.pc (s.pc.toNat + 1))
  else if s.pc.toNat % 2 = 1 then .error (.misalignedFetch s.pc)
  else .ok (s.wordAt s.pc.toNat)

end Sys2Proof.Machine
end

