-- ==== Sys2Proof/Machine/Flags.lean ====
section
/-! DEFINITION. Saturating and wrapping arithmetic, the flag computations (00 R11; 10 R23; 42 R155), and the order of the
two writes of a flag-writing operation (10 R24). -/

namespace Sys2Proof.Machine

open Sys2Proof

/-- `sat8(v)`: `min(v, 255)` (00 R11). -/
def sat8 (v : Nat) : Byte :=
  BitVec.ofNat 8 (min v 255)

/-- `sat16(v)`: `min(v, 65535)` (00 R11). -/
def sat16 (v : Nat) : Addr :=
  BitVec.ofNat 16 (min v 65535)

/-- `wrap8(v)`: `v mod 256`, for a negative `v` too (00 R11). -/
def wrap8 (v : Int) : Byte :=
  BitVec.ofInt 8 v

/-- A flag's value in `VF`: exactly 0 or 1 (10 R23). -/
def flagByte (b : Bool) : Byte :=
  if b then 1 else 0

/-- Unsigned overflow of a sum: it is above 255 (42 R148). -/
def carryOut (a b : Byte) : Bool :=
  decide (255 < a.toNat + b.toNat)

/-- No borrow in `a - b`: the minuend is not the smaller (42 R149, R151). -/
def noBorrow (a b : Byte) : Bool :=
  decide (b.toNat ≤ a.toNat)

/-- The bit a right shift by one drops (42 R150). -/
def lowBit (a : Byte) : Bool :=
  a.getLsbD 0

/-- The bit a left shift by one drops (42 R152). -/
def highBit (a : Byte) : Bool :=
  a.getLsbD 7

/-- `VF` (10 R23). -/
def flagReg : Nibble := 0xF

/-- Write a flag to `VF`. -/
def State.setFlag (s : State) (flag : Bool) : State :=
  s.setReg flagReg (flagByte flag)

/-- Result first, flag second: with `x` = 0xF the flag stays (10 R24).  Both were computed from the old registers. -/
def State.setRegAndFlag (s : State) (x : Nibble) (result : Byte) (flag : Bool) : State :=
  (s.setReg x result).setFlag flag

end Sys2Proof.Machine
end

