-- ==== Sys2Proof/Machine/Alu.lean ====
section
/-! DEFINITION. The register and arithmetic operations (42 R140 to R155).  The additions saturate, the subtractions wrap. -/

namespace Sys2Proof.Machine

open Sys2Proof

/-- LD Vx,nn (42 R140). -/
def execLdImm (x : Nibble) (nn : Byte) (s : State) : Result :=
  .next (s.setReg x nn)

/-- ADD Vx,nn: saturating, no flag (42 R141). -/
def execAddImm (x : Nibble) (nn : Byte) (s : State) : Result :=
  .next (s.setReg x (sat8 ((s.getReg x).toNat + nn.toNat)))

/-- LD Vx,Vy (42 R144). -/
def execLdReg (x y : Nibble) (s : State) : Result :=
  .next (s.setReg x (s.getReg y))

/-- OR Vx,Vy: no flag (42 R145). -/
def execOrReg (x y : Nibble) (s : State) : Result :=
  .next (s.setReg x (s.getReg x ||| s.getReg y))

/-- AND Vx,Vy: no flag (42 R146). -/
def execAndReg (x y : Nibble) (s : State) : Result :=
  .next (s.setReg x (s.getReg x &&& s.getReg y))

/-- XOR Vx,Vy: no flag (42 R147). -/
def execXorReg (x y : Nibble) (s : State) : Result :=
  .next (s.setReg x (s.getReg x ^^^ s.getReg y))

/-- ADD Vx,Vy: saturating, `VF` the carry (42 R148). -/
def execAddReg (x y : Nibble) (s : State) : Result :=
  .next (s.setRegAndFlag x (sat8 ((s.getReg x).toNat + (s.getReg y).toNat)) (carryOut (s.getReg x) (s.getReg y)))

/-- SUB Vx,Vy: wrapping `Vx - Vy`, `VF` no-borrow (42 R149). -/
def execSub (x y : Nibble) (s : State) : Result :=
  .next (s.setRegAndFlag x (wrap8 ((s.getReg x).toNat - (s.getReg y).toNat)) (noBorrow (s.getReg x) (s.getReg y)))

/-- SHR Vx: in place, by one, `VF` the bit shifted out (42 R150). -/
def execShr (x : Nibble) (s : State) : Result :=
  .next (s.setRegAndFlag x (s.getReg x >>> 1) (lowBit (s.getReg x)))

/-- SUBN Vx,Vy: wrapping `Vy - Vx`, `VF` no-borrow (42 R151). -/
def execSubn (x y : Nibble) (s : State) : Result :=
  .next (s.setRegAndFlag x (wrap8 ((s.getReg y).toNat - (s.getReg x).toNat)) (noBorrow (s.getReg y) (s.getReg x)))

/-- SHL Vx: in place, by one, `VF` the bit shifted out (42 R152). -/
def execShl (x : Nibble) (s : State) : Result :=
  .next (s.setRegAndFlag x (s.getReg x <<< 1) (highBit (s.getReg x)))

/-- RND Vx,nn: `rnd & nn`, with `rnd` the free value of this draw (42 R153; log entry 3). -/
def execRnd (x : Nibble) (nn : Byte) (s : State) : Result :=
  .next ((s.setReg x (Config.randomByte s.draws &&& nn)).countDraw)

end Sys2Proof.Machine
end

