-- ==== Sys2Proof/Machine/Operands.lean ====
section
/-! DEFINITION. The operand forms: the address immediate, the one addressing mode `I + k` with its bounds check, and the
values the memory operations move (30 R74; 43 R176, R177). -/

namespace Sys2Proof.Machine

open Sys2Proof

/-- `zext_16(nnn)`: an address immediate meets a 16-bit register (30 R74). -/
def zextAddr (nnn : Imm12) : Addr :=
  nnn.setWidth 16

/-- `zext_16(V[x])` (41 R130; 43 R171). -/
def zextReg (b : Byte) : Addr :=
  b.setWidth 16

/-- The fault of an access to the `len` bytes from `I`, if any of them is above 0xFFF: the sum is an unbounded integer,
and no byte (`len` = 0) means no fault (20 R52; 43 R177; 44 R195). -/
def State.spanFault (s : State) (len : Nat) : Option FaultRecord :=
  if 1 ≤ len ∧ memSize ≤ s.index.toNat + len - 1 then
    some (.outOfBoundsMemoryAccess .execute s.instrAddr (s.index.toNat + len - 1))
  else none

/-- Check the whole range of an indexed access first; the operation runs only when all of it lies in memory (20 R52). -/
def guardSpan (len : Nat) (s : State) (operation : Result) : Result :=
  match s.spanFault len with
  | some r => raise r s
  | none => operation

/-- `V[0] .. V[x]`, in ascending order (43 R174). -/
def State.regsUpTo (s : State) (x : Nibble) : List Byte :=
  s.v.toList.take (x.toNat + 1)

/-- The registers after `V[i] <- MemRead(I + i, 1)` for `i` in 0 .. x: those above `x` keep their values (43 R175). -/
def State.regsLoaded (s : State) (x : Nibble) : Vector Byte 16 :=
  Vector.ofFn fun i => if i.val ≤ x.toNat then s.byteAt (s.index.toNat + i.val) else s.v[i]

/-- Hundreds, tens and ones, one decimal digit per byte (43 R173). -/
def bcdDigits (b : Byte) : List Byte :=
  [BitVec.ofNat 8 (b.toNat / 100), BitVec.ofNat 8 (b.toNat / 10 % 10), BitVec.ofNat 8 (b.toNat % 10)]

/-- The address of the glyph of a register's low nibble: `FONT_BASE + (V[x] & 0x0F) * 5` (43 R172). -/
def glyphAddr (c : Config) (b : Byte) : Addr :=
  BitVec.ofNat 16 (c.fontBase.val + (b &&& 0x0F).toNat * 5)

/-- The least `k` in 0..15 with `Key[k] = 1` (45 R212). -/
def State.leastKey (s : State) : Option Nat :=
  (List.range 16).find? fun k => s.keyDown k

end Sys2Proof.Machine
end

