-- ==== Sys2Proof/Machine/Control.lean ====
section
/-! DEFINITION. The control-transfer operations (41 R120 to R130).  On entry `pc = a + 2`. -/

namespace Sys2Proof.Machine

open Sys2Proof

/-- RET (41 R121). -/
def execRet (s : State) : Result :=
  match s.pop with
  | .error r => raise r s
  | .ok (a, t) => .next (t.setPc a)

/-- JP nnn (41 R122). -/
def execJp (nnn : Imm12) (s : State) : Result :=
  .next (s.setPc (zextAddr nnn))

/-- CALL nnn: the advanced `pc` is pushed (41 R123). -/
def execCall (nnn : Imm12) (s : State) : Result :=
  match s.push s.pc with
  | .error r => raise r s
  | .ok t => .next (t.setPc (zextAddr nnn))

/-- SE Vx,nn (41 R124). -/
def execSeImm (x : Nibble) (nn : Byte) (s : State) : Result :=
  .next (s.skipIf (s.getReg x == nn))

/-- SNE Vx,nn (41 R125). -/
def execSneImm (x : Nibble) (nn : Byte) (s : State) : Result :=
  .next (s.skipIf (s.getReg x != nn))

/-- SE Vx,Vy (41 R126). -/
def execSeReg (x y : Nibble) (s : State) : Result :=
  .next (s.skipIf (s.getReg x == s.getReg y))

/-- SNE Vx,Vy (41 R127). -/
def execSneReg (x y : Nibble) (s : State) : Result :=
  .next (s.skipIf (s.getReg x != s.getReg y))

/-- JP V0,nnn: always register 0, the sum whole in 16 bits (41 R130). -/
def execJpV0 (nnn : Imm12) (s : State) : Result :=
  .next (s.setPc (zextReg (s.getReg 0) + zextAddr nnn))

end Sys2Proof.Machine
end

