-- ==== Sys2Proof/Machine/DisplayOps.lean ====
section
/-! DEFINITION. The display controller and its two operations (44 R190 to R199). -/

namespace Sys2Proof.Machine

open Sys2Proof

/-- Every cell OFF (44 R190, R191). -/
def Display.cleared : Display :=
  Vector.replicate 2048 false

/-- Cell `i`, for `i` in 0..2047 (10 R33). -/
def Display.cell (d : Display) (i : Nat) : Bool :=
  d[i]?.getD false

/-- The composite write: cell `i` becomes `old ^ bit`; the second part says whether it went from 1 to 0 (44 R190). -/
def Display.composite (d : Display) (i : Nat) (bit : Bool) : Display × Bool :=
  (d.setIfInBounds i (Display.cell d i ^^ bit), Display.cell d i && bit)

/-- One pixel of a sprite row on screen row `cy`: bit `7 - c` of the row at column `x0 + c`, dropped past the right edge
(44 R192 to R194).  The pair is the display and the collision flag so far. -/
def drawPixel (x0 cy : Nat) (row : Byte) (p : Display × Bool) (c : Nat) : Display × Bool :=
  if x0 + c ≤ 63 then
    let q := Display.composite p.1 (x0 + c + cy * 64) (row.getLsbD (7 - c))
    (q.1, p.2 || q.2)
  else p

/-- One sprite row, left to right; a row past the bottom edge is dropped whole (44 R192, R193). -/
def drawRow (x0 cy : Nat) (row : Byte) (p : Display × Bool) : Display × Bool :=
  if cy ≤ 31 then (List.range 8).foldl (drawPixel x0 cy row) p else p

/-- A sprite of `n` rows with its origin at (`x0`, `y0`), top to bottom; `row r` is its row `r` (44 R192). -/
def drawSprite (x0 y0 n : Nat) (row : Nat → Byte) (d : Display) : Display × Bool :=
  (List.range n).foldl (fun p r => drawRow x0 (y0 + r) (row r) p) (d, false)

/-- The display and the collision flag a DRW of `n` rows makes of state `s`: the origin is `V[x] mod 64`, `V[y] mod 32`,
row `r` is the byte at `I + r` (44 R192). -/
def State.drawn (s : State) (x y n : Nibble) : Display × Bool :=
  drawSprite ((s.getReg x).toNat % 64) ((s.getReg y).toNat % 32) n.toNat
    (fun r => s.byteAt (s.index.toNat + r)) s.disp

/-- CLS (44 R191). -/
def execCls (s : State) : Result :=
  .next (s.setDisp Display.cleared)

/-- DRW Vx,Vy,n: `VF` is written last and always (44 R192, R197). -/
def execDrw (x y n : Nibble) (s : State) : Result :=
  guardSpan n.toNat s (.next ((s.setDisp (s.drawn x y n).1).setFlag (s.drawn x y n).2))

end Sys2Proof.Machine
end

