-- ==== Sys2Proof/Machine/IndexMemory.lean ====
section
/-! DEFINITION. The index-register and memory operations (43 R170 to R177). -/

namespace Sys2Proof.Machine

open Sys2Proof

/-- LD I,nnn (43 R170). -/
def execLdI (nnn : Imm12) (s : State) : Result :=
  .next (s.setIndex (zextAddr nnn))

/-- ADD I,Vx: saturating at 0xFFFF, no flag (43 R171). -/
def execAddI (x : Nibble) (s : State) : Result :=
  .next (s.setIndex (sat16 (s.index.toNat + (s.getReg x).toNat)))

/-- LD F,Vx (43 R172). -/
def execLdF (x : Nibble) (s : State) : Result :=
  .next (s.setIndex (glyphAddr s.config (s.getReg x)))

/-- LD B,Vx: three bytes at `I`, `I+1`, `I+2` (43 R173). -/
def execLdB (x : Nibble) (s : State) : Result :=
  guardSpan 3 s (.next (s.storeBytes s.index.toNat (bcdDigits (s.getReg x))))

/-- LD [I],Vx: `V[0] .. V[x]` to `I .. I+x`; `I` stays (43 R174). -/
def execStoreRegs (x : Nibble) (s : State) : Result :=
  guardSpan (x.toNat + 1) s (.next (s.storeBytes s.index.toNat (s.regsUpTo x)))

/-- LD Vx,[I]: `V[0] .. V[x]` from `I .. I+x`; `I` stays (43 R175). -/
def execLoadRegs (x : Nibble) (s : State) : Result :=
  guardSpan (x.toNat + 1) s (.next (s.setRegs (s.regsLoaded x)))

end Sys2Proof.Machine
end

