-- ==== Sys2Proof/Machine/KeypadTimers.lean ====
section
/-! DEFINITION. The keypad and timer operations (45 R210 to R217). -/

namespace Sys2Proof.Machine

open Sys2Proof

/-- Skip on the level of key `V[x]`: KeyIndexOutOfRange when `V[x] > 15`, else skip when the key's level is `wanted`
(45 R210, R211; 60 R236). -/
def skipOnKey (x : Nibble) (wanted : Bool) (s : State) : Result :=
  if 15 < (s.getReg x).toNat then raise (.keyIndexOutOfRange s.instrAddr (s.getReg x)) s
  else .next (s.skipIf (s.keyDown (s.getReg x).toNat == wanted))

/-- SKP Vx (45 R210). -/
def execSkp (x : Nibble) (s : State) : Result :=
  skipOnKey x true s

/-- SKNP Vx (45 R211). -/
def execSknp (x : Nibble) (s : State) : Result :=
  skipOnKey x false s

/-- LD Vx,K: the least pressed key, or `pc` back to this word (45 R212). -/
def execLdVxK (x : Nibble) (s : State) : Result :=
  match s.leastKey with
  | some k => .next (s.setReg x (BitVec.ofNat 8 k))
  | none => .next s.rewind

/-- LD Vx,DT (45 R214). -/
def execLdVxDT (x : Nibble) (s : State) : Result :=
  .next (s.setReg x s.dt)

/-- LD DT,Vx (45 R215). -/
def execLdDTVx (x : Nibble) (s : State) : Result :=
  .next (s.setDT (s.getReg x))

/-- LD ST,Vx (45 R216). -/
def execLdSTVx (x : Nibble) (s : State) : Result :=
  .next (s.setST (s.getReg x))

end Sys2Proof.Machine
end

