-- ==== Sys2Proof/Machine/Step.lean ====
section
/-! DEFINITION. The tick (40 R100), and how the host's checks place a word for the next tick to fetch. -/

namespace Sys2Proof.Machine

open Sys2Proof

/-- One tick (40 R100): no step on a faulted core (40 R102); fetch, and a fetch fault leaves `pc` (40 R103, R104); advance
before dispatch (40 R105); decode; the operation, or the diagnosed no-op (40 R107, R108). -/
def step (s : State) : Host.Outcome State Fault Refusal :=
  match s.fault with
  | some r => .fault (.sessionOver r)
  | none =>
    match s.fetch with
    | .error r => raise r s
    | .ok w =>
      match decodeWord w with
      | .ok i => exec i s.advance
      | .error u => execUnknown w u s.advance

/-- `s` with a table word stored where `step` fetches next, its high byte at `pc` and its low byte at `pc + 1`
(20 R53).  It stands for a ROM that holds the word there (log entry 8). -/
def State.withFetchWord (s : State) (nbits w : Nat) : State :=
  let word := BitVec.ofNat 16 (w % 2 ^ nbits)
  s.storeBytes s.pc.toNat [highByte word, lowByte word]

end Sys2Proof.Machine
end

