-- ==== Sys2Proof/Machine/Events.lean ====
section
/-! DEFINITION. The host's side of the boundary (00 R7): Reset (70 R260 to R264), SetKey (70 R271), TimerDecrement
(70 R272), the read accessors (60 R250), and what it refuses.  None of these is part of a tick: the host applies them
between ticks (70 R270, R275; log entry 9). -/

namespace Sys2Proof.Machine

open Sys2Proof

/-- Why a host event or accessor is refused; it then has no result (92 D28).  That the machine the host held before is as it
was after a rejected Reset is the model's choice, which the spec leaves open (60 R230, R237; log entry 18). -/
inductive HostRefusal where
  /-- OversizedROM: no machine is constructed (60 R237; 70 R261) -/
  | oversizedROM (length : Nat)
  /-- a key slot above 15 (70 R271; 60 R250) -/
  | keySlot (k : Nat)
  /-- a register number above 15 (60 R250) -/
  | registerNumber (i : Nat)
  /-- an address above 0xFFF (60 R250) -/
  | address (a : Nat)
  /-- the stack top of an empty stack (60 R250) -/
  | emptyStack
  /-- a display cell number above 2047 (60 R250; 10 R33) -/
  | displayCell (i : Nat)
deriving DecidableEq, Repr

/-- `Reset(rom)` with the parameters `c`: rejected when the ROM does not fit, else every piece of state at its reset
value, with the ROM at LOAD_BASE over the font-and-zero image (70 R260 to R264; 10 R45).  `draws` is where the random
bytes go on from (log entry 3). -/
def State.construct (c : Config) (draws : Nat) (rom : List Byte) : Except HostRefusal State :=
  if memSize < rom.length + loadBase then .error (.oversizedROM rom.length)
  else .ok { State.reset with config := c, draws := draws, mem := Memory.writeBytes c [] loadBase rom }

/-- `SetKey(k, v)` (70 R271). -/
def State.setKey (s : State) (k : Nat) (down : Bool) : Except HostRefusal State :=
  if 15 < k then .error (.keySlot k)
  else .ok { s with keys := s.keys.setIfInBounds k down }

/-- A timer one step nearer to 0, where it stays (70 R272). -/
def countDown (b : Byte) : Byte :=
  if b = 0 then 0 else b - 1

/-- `TimerDecrement`: both timers by the one event (70 R272). -/
def State.timerDecrement (s : State) : State :=
  { s with dt := countDown s.dt, st := countDown s.st }

/-- What the host may apply between two ticks (70 R270). -/
inductive HostEvent where
  | setKey (k : Nat) (down : Bool)
  | timerDecrement
  | reset (rom : List Byte)
deriving DecidableEq, Repr

/-- Apply one host event.  Reset keeps nothing of the session but the parameters, which are not state (10 R39), and
the count of random bytes already consumed (log entry 3); a rejected Reset answers no state (log entry 18). -/
def applyEvent (e : HostEvent) (s : State) : Except HostRefusal State :=
  match e with
  | .setKey k down => s.setKey k down
  | .timerDecrement => .ok s.timerDecrement
  | .reset rom => State.construct s.config s.draws rom

/-! ### The read accessors (60 R250).  Reading changes nothing, so each answers a value and no state. -/

def readPc (s : State) : Addr := s.pc
def readIndex (s : State) : Addr := s.index
def readDT (s : State) : Byte := s.dt
def readST (s : State) : Byte := s.st
def readFault (s : State) : Option FaultRecord := s.fault
def readDiagLog (s : State) : List DiagRecord := s.diagLog
def readStackDepth (s : State) : Nat := s.sp

/-- `V[i]`, `i` in 0..15. -/
def readRegister (s : State) (i : Nat) : Except HostRefusal Byte :=
  if 15 < i then .error (.registerNumber i) else .ok (s.getReg (BitVec.ofNat 4 i))

/-- `Mem[a]`, `a` in 0..0xFFF. -/
def readMemory (s : State) (a : Nat) : Except HostRefusal Byte :=
  if memSize ≤ a then .error (.address a) else .ok (s.byteAt a)

/-- `Stack[SP-1]`, only when `SP` > 0. -/
def readStackTop (s : State) : Except HostRefusal Addr :=
  match s.stack with
  | [] => .error .emptyStack
  | a :: _ => .ok a

/-- `Disp[i]`, `i` in 0..2047: one cell of the read-only view. -/
def readDisplay (s : State) (i : Nat) : Except HostRefusal Bool :=
  if 2048 ≤ i then .error (.displayCell i) else .ok (Display.cell s.disp i)

end Sys2Proof.Machine
end

