-- ==== Sys2Proof/Safety.lean ====
section
/-! DEFINITION. The terms claims are made in: what a step may leave unchanged, the invariant of the machine, a faulted
core and a core at rest, and the sessions a host can run. -/

namespace Sys2Proof.Machine

open Sys2Proof

/-! ### Frames -/

/-- The pieces of state, one per field of `State`. -/
inductive Part where
  | v | pc | index | dt | st | stack | mem | disp | keys | fault | diagLog | draws | config
deriving DecidableEq, Repr

/-- The piece is the same in both states, said through the model's reads: every register, every byte, every cell, every
key. -/
def Part.Same (p : Part) (s t : State) : Prop :=
  match p with
  | .v => ∀ r, t.getReg r = s.getReg r
  | .pc => t.pc = s.pc
  | .index => t.index = s.index
  | .dt => t.dt = s.dt
  | .st => t.st = s.st
  | .stack => t.stack = s.stack
  | .mem => ∀ a, t.byteAt a = s.byteAt a
  | .disp => ∀ i, Display.cell t.disp i = Display.cell s.disp i
  | .keys => ∀ k, t.keyDown k = s.keyDown k
  | .fault => t.fault = s.fault
  | .diagLog => t.diagLog = s.diagLog
  | .draws => t.draws = s.draws
  | .config => t.config = s.config

/-- The frame: every piece of state outside `changed` is the same. -/
def Frame (changed : List Part) (s t : State) : Prop :=
  ∀ p, p ∉ changed → p.Same s t

/-- Every register but those in `rs` holds what it held. -/
def RegsKeptExcept (rs : List Nibble) (s t : State) : Prop :=
  ∀ r, r ∉ rs → t.getReg r = s.getReg r

/-- Every byte outside the `len` bytes from `a` reads as before. -/
def BytesKeptOutside (a len : Nat) (s t : State) : Prop :=
  ∀ b, b < a ∨ a + len ≤ b → t.byteAt b = s.byteAt b

/-- The words a mask and a match select decode to the instruction `i` makes of their fields (30 R80). -/
def SelectedBy (mask matched : Word) (i : Fields → Instr) : Prop :=
  ∀ w, w &&& mask = matched → decodeWord w = .ok (i (Fields.ofWord w))

/-- A tick would fetch the word `w`: the latch is empty, `pc` is even and both its bytes are in memory (40 R100 to
R104). -/
def Fetches (s : State) (w : Word) : Prop :=
  s.fault = none ∧ s.pc.toNat % 2 = 0 ∧ s.pc.toNat ≤ 0xFFE ∧ s.wordAt s.pc.toNat = w

/-- The address a fault record carries (60 R231, R241). -/
def FaultRecord.instrPc : FaultRecord → Addr
  | .stackUnderflow pc => pc
  | .stackOverflow pc => pc
  | .outOfBoundsMemoryAccess _ pc _ => pc
  | .misalignedFetch pc => pc
  | .keyIndexOutOfRange pc _ => pc

/-- The registers an instruction may write: its destination `V[x]`, `V[0] .. V[x]` for the block load, and `VF` as a flag
(10 R22, R23). -/
def Instr.writesReg (i : Instr) (r : Nibble) : Prop :=
  match i with
  | .ldImm x _ | .addImm x _ | .ldReg x _ | .orReg x _ | .andReg x _ | .xorReg x _ | .rnd x _ | .ldVxDT x
  | .ldVxK x => r = x
  | .addReg x _ | .sub x _ | .subn x _ | .shr x | .shl x => r = x ∨ r = 0xF
  | .drw _ _ _ => r = 0xF
  | .loadRegs x => r.toNat ≤ x.toNat
  | .cls | .ret | .jp _ | .call _ | .seImm _ _ | .sneImm _ _ | .seReg _ _ | .sneReg _ _ | .ldI _ | .jpV0 _
  | .skp _ | .sknp _ | .ldDTVx _ | .ldSTVx _ | .addI _ | .ldF _ | .ldB _ | .storeRegs _ => False

/-! ### The sprite, said cell by cell -/

/-- Whether a sprite of `n` rows with its origin at (`x0`, `y0`) has a 1 over column `cx`, row `cy`: bit 7 of a row's byte
is its leftmost pixel (44 R192, R194).  Said of cells on the screen, so a clipped pixel is over no cell (44 R193). -/
def spriteBit (x0 y0 n : Nat) (row : Nat → Byte) (cx cy : Nat) : Bool :=
  decide (x0 ≤ cx ∧ cx < x0 + 8 ∧ y0 ≤ cy ∧ cy < y0 + n) && (row (cy - y0)).getLsbD (7 - (cx - x0))

/-- The sprite bit a DRW of `n` rows in state `s` lays over column `cx`, row `cy` (44 R192). -/
def State.spriteBitAt (s : State) (x y n : Nibble) (cx cy : Nat) : Bool :=
  spriteBit ((s.getReg x).toNat % 64) ((s.getReg y).toNat % 32) n.toNat (fun r => s.byteAt (s.index.toNat + r)) cx cy

/-! ### The invariant -/

/-- A stack entry some CALL pushed: the address after a word, so even and at most 0x1000 (10 R27; 41 R123). -/
def ReturnAddr (a : Addr) : Prop :=
  a.toNat % 2 = 0 ∧ 2 ≤ a.toNat ∧ a.toNat ≤ 0x1000

/-- What holds of every state a session reaches: the parameters are legal (00 R8), memory is in its canonical form and
inside the address space (20 R50), the stack is within its depth and holds return addresses (10 R31; 10 R27), and `pc`
is at most the largest value any operation gives it (10 R27). -/
structure MachineInv (s : State) : Prop where
  configLegal : s.config.wellFormed = true
  memCanonical : Memory.wf s.config s.mem = true
  stackBounded : s.sp ≤ s.config.stackDepth
  stackEntries : ∀ a ∈ s.stack, ReturnAddr a
  pcBounded : s.pc.toNat ≤ 0x10FE

/-! ### Ends of a run -/

/-- The session is over: a fatal fault has been taken.  Never a successful end (60 R243). -/
def Faulted (s : State) : Prop :=
  s.fault.isSome = true

/-- At rest, the spec's suggested end of a run: the latch is empty and the word at `pc` is a jump to `pc`, with `pc` even
and at most 0xFFE (70 R280). -/
def AtRest (s : State) : Prop :=
  s.fault = none ∧ s.pc.toNat % 2 = 0 ∧ s.pc.toNat ≤ 0xFFE ∧ s.wordAt s.pc.toNat = 0x1000 ||| s.pc

/-! ### Sessions -/

/-- One event at the boundary that changes the state: a tick, or a host event between ticks (00 R7; 70 R270, R275).  A
refused event is no move, so a session may go on from the state before it; for a rejected Reset that is the model's
choice (log entry 18). -/
inductive Move (s t : State) : Prop where
  | tick (answers : step s = .next t)
  | host (e : HostEvent) (applied : applyEvent e s = .ok t)

/-- The states of the sessions a host can run: construction from any legal parameters and any ROM that fits, then any
moves in any order (70 R260, R270, R276). -/
inductive Reachable : State → Prop where
  | constructed (c : Config) (draws : Nat) (rom : List Byte) (s : State)
      (legal : c.wellFormed = true) (made : State.construct c draws rom = .ok s) : Reachable s
  | moved (s t : State) (before : Reachable s) (move : Move s t) : Reachable t

/-- A safe session end: the host stopped, and no fatal fault has been taken (60 R243; 70 R280). -/
def SafeState (s : State) : Prop :=
  Reachable s ∧ ¬ Faulted s

end Sys2Proof.Machine
end

