-- ==== Sys2Proof/Certificates/Slice0/Obligations.lean ====
section
/-! DEFINITION. The statements for the provers.  Each cites the rules of spec/ it says; `exec` runs on a state whose `pc` is
already `a + 2` (40 R105), so `s.pc - 2` is the executing word's address. -/

open Sys2Proof Sys2Proof.Machine

/-! ### Reset and the host's events -/

/-- 70 R264: after a successful Reset everything but memory is zeroed, `pc` is 0x200, the latch and the log are empty.
That the parameters are the ones given is the model's
choice, not the rule's (log entry 1). -/
def Obligations.ResetZeroesAllButMemory : Prop :=
  ∀ c draws rom s, State.construct c draws rom = .ok s →
    (∀ r, s.getReg r = 0) ∧ s.index = 0 ∧ s.dt = 0 ∧ s.st = 0 ∧ s.stack = [] ∧
    (∀ i, Display.cell s.disp i = false) ∧ (∀ k, s.keyDown k = false) ∧
    s.pc = 0x200 ∧ s.fault = none ∧ s.diagLog = [] ∧ s.config = c

/-- 70 R262 with the decisions D4 and D5 it rests on: memory after Reset is the ROM at 0x200, FONT_IMAGE at FONT_BASE, and 0
elsewhere. -/
def Obligations.ResetBuildsMemory : Prop :=
  ∀ c draws rom s, State.construct c draws rom = .ok s → ∀ a, a < 4096 →
    s.byteAt a =
      if 0x200 ≤ a ∧ a < 0x200 + rom.length then rom[a - 0x200]?.getD 0
      else if c.fontBase.val ≤ a ∧ a < c.fontBase.val + 80 then c.fontImage[a - c.fontBase.val]?.getD 0
      else 0

/-- 60 R237: a ROM of up to 3584 bytes is accepted, a longer one is rejected with its length and makes no machine. -/
def Obligations.ResetRejectsExactlyOversizedRoms : Prop :=
  ∀ c draws rom,
    (rom.length ≤ 3584 → ∃ s, State.construct c draws rom = .ok s) ∧
    (3584 < rom.length → State.construct c draws rom = .error (.oversizedROM rom.length))

/-- The state the host starts from is Reset with an empty ROM and the default parameters (log entries 1, 2 and 3: where its
FONT_BASE and its count of random bytes come from). -/
def Obligations.StateResetIsEmptyRomReset : Prop :=
  State.construct Config.default 0 [] = .ok State.reset

/-- 70 R271: SetKey writes one key and nothing else; a slot above 15 is refused. -/
def Obligations.SetKeyWritesOneKey : Prop :=
  ∀ s k down,
    (k ≤ 15 → ∃ t, s.setKey k down = .ok t ∧ t.keyDown k = down ∧ (∀ j, j ≠ k → t.keyDown j = s.keyDown j) ∧
      Frame [.keys] s t) ∧
    (15 < k → s.setKey k down = .error (.keySlot k))

/-- 70 R272 with decision D21 (stop at zero, both timers by one event): TimerDecrement. -/
def Obligations.TimerDecrementCountsBothDown : Prop :=
  ∀ s : State, (s.timerDecrement).dt.toNat = s.dt.toNat - 1 ∧ (s.timerDecrement).st.toNat = s.st.toNat - 1 ∧
    Frame [.dt, .st] s s.timerDecrement

/-- 60 R250 with decision D28: an accessor answers the value it names, and refuses an argument out of range. -/
def Obligations.AccessorsAnswerOrRefuse : Prop :=
  ∀ s : State,
    (∀ r : Nibble, readRegister s r.toNat = .ok (s.getReg r)) ∧
    (∀ i, 15 < i → readRegister s i = .error (.registerNumber i)) ∧
    (∀ a, a ≤ 0xFFF → readMemory s a = .ok (s.byteAt a)) ∧
    (∀ a, 0xFFF < a → readMemory s a = .error (.address a)) ∧
    (∀ i, i ≤ 2047 → readDisplay s i = .ok (Display.cell s.disp i)) ∧
    (∀ i, 2047 < i → readDisplay s i = .error (.displayCell i)) ∧
    (∀ a rest, s.stack = a :: rest → readStackTop s = .ok a) ∧
    (s.stack = [] → readStackTop s = .error .emptyStack) ∧
    readPc s = s.pc ∧ readIndex s = s.index ∧ readStackDepth s = s.stack.length ∧ readDT s = s.dt ∧ readST s = s.st ∧
    readFault s = s.fault ∧ readDiagLog s = s.diagLog

/-! ### Encoding -/

/-- 30 R71: the six fields, by their bits; they overlap; in bytes, `op ++ x` is the first byte and `nn` the second. -/
def Obligations.FieldsAreTheBitsOfTheWord : Prop :=
  ∀ w : Word, (Fields.ofWord w).wellFormed = true ∧
    (Fields.ofWord w).op.toNat = w.toNat / 4096 ∧ (Fields.ofWord w).x.toNat = w.toNat / 256 % 16 ∧
    (Fields.ofWord w).y.toNat = w.toNat / 16 % 16 ∧ (Fields.ofWord w).n.toNat = w.toNat % 16 ∧
    (Fields.ofWord w).nn.toNat = w.toNat % 256 ∧ (Fields.ofWord w).nnn.toNat = w.toNat % 4096 ∧
    highByte w = joinNibbles (Fields.ofWord w).op (Fields.ofWord w).x ∧ lowByte w = (Fields.ofWord w).nn

/-- Every instruction is read back from its word, with every operand at every value (30 R80's map: decision D7, general
knowledge GK1; log entry 10). -/
def Obligations.DecodeEncodeRoundTrip : Prop :=
  ∀ i, decodeWord (encode i) = .ok i ∧ ∀ rest, decodeBytes (encodeBytes i ++ rest) = .ok (i, rest)

/-- A word that selects an instruction matches its row of 30 R80 under the row's mask, and is the instruction's word but for
the bits 30 R78 ignores (decisions D7 and D8; log entry 10). -/
def Obligations.DecodeFollowsOpcodeMap : Prop :=
  ∀ w i, decodeWord w = .ok i → w &&& i.mask = i.matchBits ∧ encode i = w &&& ~~~i.ignoredBits

/-- The words with an unknown secondary discriminant are exactly those of 30 R85's table (decisions D7 and D8; log
entry 10). -/
def Obligations.UnknownWordsAreExactlyR85s : Prop :=
  ∀ w u, decodeWord w = .error u ↔
    u.group = (Fields.ofWord w).op ∧
    ((u.group = 0x0 ∧ u.discriminant = (Fields.ofWord w).nn ∧ (Fields.ofWord w).nn ∉ [0xE0, 0xEE]) ∨
      (u.group = 0x8 ∧ u.discriminant = (Fields.ofWord w).n.setWidth 8 ∧
        (Fields.ofWord w).n ∈ [0x8, 0x9, 0xA, 0xB, 0xC, 0xD, 0xF]) ∨
      (u.group = 0xE ∧ u.discriminant = (Fields.ofWord w).nn ∧ (Fields.ofWord w).nn ∉ [0x9E, 0xA1]) ∨
      (u.group = 0xF ∧ u.discriminant = (Fields.ofWord w).nn ∧
        (Fields.ofWord w).nn ∉ [0x07, 0x0A, 0x15, 0x18, 0x1E, 0x29, 0x33, 0x55, 0x65]))

/-- A few words written out from 30 R80, one or more a family, and what they select. -/
def Obligations.SampleWordsDecode : Prop :=
  decodeWord 0x2390 = .ok (.call 0x390) ∧ decodeWord 0x6A2B = .ok (.ldImm 0xA 0x2B) ∧
  decodeWord 0x8AB4 = .ok (.addReg 0xA 0xB) ∧ decodeWord 0xF255 = .ok (.storeRegs 2) ∧
  decodeWord 0xD01F = .ok (.drw 0 1 0xF) ∧ decodeWord 0xE19E = .ok (.skp 1) ∧ decodeWord 0xF507 = .ok (.ldVxDT 5) ∧
  decodeWord 0x0000 = .error ⟨0x0, 0x00⟩

/-- 20 R53: the fetched word is big-endian, `Mem[pc]*256 + Mem[pc+1]`, and a fetch that succeeds is from an even address with
both bytes in memory (20 R56). -/
def Obligations.FetchedWordIsBigEndian : Prop :=
  ∀ (s : State) w, s.fetch = .ok w →
    w.toNat = (s.byteAt s.pc.toNat).toNat * 256 + (s.byteAt (s.pc.toNat + 1)).toNat ∧
    s.pc.toNat % 2 = 0 ∧ s.pc.toNat + 1 ≤ 0xFFF

/-! ### The tick -/

/-- 40 R100, R105, R107: when the word at `pc` decodes to an instruction, the tick is that instruction's meaning on the state
with `pc` advanced by 2 (the advance is the one thing the step adds). -/
def Obligations.StepRunsDecodedInstruction : Prop :=
  ∀ s w i, Fetches s w → decodeWord w = .ok i → step s = exec i { s with pc := s.pc + 2 }

/-- 40 R108: a word with an unknown secondary discriminant logs one record and nothing else; `pc` goes on to the next word;
no fault. -/
def Obligations.UnknownWordIsDiagnosedNoOp : Prop :=
  ∀ s w u, Fetches s w → decodeWord w = .error u →
    ∃ t, step s = .next t ∧ t.pc = s.pc + 2 ∧
      t.diagLog = s.diagLog ++ [.unknownSecondaryOpcode w s.pc u.group u.discriminant] ∧ Frame [.pc, .diagLog] s t

/-- 40 R103, R104 with decisions D6 and D18: a fetch outside memory, or else from an odd `pc`, takes its fault; `pc` and
everything but the latch stay.  The fault's form: decision D17, log entries 4 and 5. -/
def Obligations.FetchFaultsKeepEverything : Prop :=
  ∀ s : State, s.fault = none →
    (0xFFF < s.pc.toNat + 1 → ∃ t, step s = .next t ∧
      t.fault = some (.outOfBoundsMemoryAccess .fetch s.pc (s.pc.toNat + 1)) ∧ Frame [.fault] s t) ∧
    (s.pc.toNat + 1 ≤ 0xFFF → s.pc.toNat % 2 = 1 → ∃ t, step s = .next t ∧
      t.fault = some (.misalignedFetch s.pc) ∧ Frame [.fault] s t)

/-- 40 R102 with decision D32: a core whose latch is set takes no tick (the model's step stops; log entry 4). -/
def Obligations.FaultedCoreTakesNoTick : Prop :=
  ∀ (s : State) r, s.fault = some r → step s = .fault (.sessionOver r)

/-- 60 R241 with decision D17: a tick that takes a fault changes the latch, and `pc` to `a + 2` in the execute stage;
nothing else.  The record carries `a`.  The fault's form: decision D17, log entries 4 and 5. -/
def Obligations.FaultsArePrecise : Prop :=
  ∀ s t r, step s = .next t → t.fault = some r →
    r.instrPc = s.pc ∧ Frame [.fault, .pc] s t ∧
    (t.pc = s.pc ∧ (∃ f, s.fetch = .error f) ∨ t.pc = s.pc + 2 ∧ ∃ w, s.fetch = .ok w)

/-- 60 R231 with decisions D6 and D14: in the execute stage, only these instructions take a fault, only these faults, only on
these conditions.  The fault's form: decision D17, log entries 4 and 5. -/
def Obligations.OnlyListedInstructionsFault : Prop :=
  ∀ i s t r, s.fault = none → exec i s = .next t → t.fault = some r →
    (i = .ret ∧ s.sp = 0 ∧ r = .stackUnderflow (s.pc - 2)) ∨
    ((∃ nnn, i = .call nnn) ∧ s.config.stackDepth ≤ s.sp ∧ r = .stackOverflow (s.pc - 2)) ∨
    ((∃ x y n, i = .drw x y n ∧ 1 ≤ n.toNat ∧ 0xFFF < s.index.toNat + n.toNat - 1 ∧
        r = .outOfBoundsMemoryAccess .execute (s.pc - 2) (s.index.toNat + n.toNat - 1))) ∨
    ((∃ x, i = .ldB x) ∧ 0xFFF < s.index.toNat + 2 ∧
        r = .outOfBoundsMemoryAccess .execute (s.pc - 2) (s.index.toNat + 2)) ∨
    (∃ x, (i = .storeRegs x ∨ i = .loadRegs x) ∧ 0xFFF < s.index.toNat + x.toNat ∧
        r = .outOfBoundsMemoryAccess .execute (s.pc - 2) (s.index.toNat + x.toNat)) ∨
    (∃ x, (i = .skp x ∨ i = .sknp x) ∧ 15 < (s.getReg x).toNat ∧ r = .keyIndexOutOfRange (s.pc - 2) (s.getReg x))

/-- No instruction stops the machine: every one answers a next state from every state (60 R230: a fatal fault is a latched
state; log entry 4). -/
def Obligations.EveryInstructionAnswersNext : Prop :=
  ∀ i s, ∃ t, exec i s = .next t

/-- 40 R110: a tick changes `DT` only when it runs LD DT,Vx and `ST` only when it runs LD ST,Vx, and never changes a
key. -/
def Obligations.TicksLeaveTimersAndKeys : Prop :=
  ∀ s t, step s = .next t →
    (∀ k, t.keyDown k = s.keyDown k) ∧
    (t.dt ≠ s.dt → ∃ w x, Fetches s w ∧ decodeWord w = .ok (.ldDTVx x)) ∧
    (t.st ≠ s.st → ∃ w x, Fetches s w ∧ decodeWord w = .ok (.ldSTVx x))

/-- 10 R37 and 60 R238 with decision D24: the diagnostic log only grows, by the record of an unknown word. -/
def Obligations.DiagLogOnlyGrows : Prop :=
  ∀ s t, step s = .next t →
    t.diagLog = s.diagLog ∨
    ∃ w u, Fetches s w ∧ decodeWord w = .error u ∧
      t.diagLog = s.diagLog ++ [.unknownSecondaryOpcode w s.pc u.group u.discriminant]

/-- 40 R111 and 42 R153 with decision D16: one random byte is consumed by each RND and none otherwise.  `draws` is the
model's own count (log entry 3). -/
def Obligations.OnlyRndConsumesRandomBytes : Prop :=
  ∀ i s t, exec i s = .next t →
    ((∃ x nn, i = .rnd x nn) → t.draws = s.draws + 1) ∧ ((¬ ∃ x nn, i = .rnd x nn) → t.draws = s.draws)

/-- 10 R22, R23 (derived there): an instruction changes no register but those it lists as written, `VF` as a flag among
them. -/
def Obligations.OnlyListedRegistersAreWritten : Prop :=
  ∀ i s t, exec i s = .next t → ∀ r, t.getReg r ≠ s.getReg r → Sys2Proof.Machine.Instr.writesReg i r

/-- 10 R32 and 60 R250: only CALL and RET change the stack; 10 R33: only CLS and DRW change a display cell; 20 R57: only
LD B,Vx and LD [I],Vx change a byte of memory; 10 R29: only LD I, ADD I and LD F change `I`; and none changes the
parameters (log entry 1). -/
def Obligations.OnlyListedInstructionsWriteState : Prop :=
  ∀ i s t, exec i s = .next t →
    (t.stack ≠ s.stack → i = .ret ∨ ∃ nnn, i = .call nnn) ∧
    ((∃ k, Display.cell t.disp k ≠ Display.cell s.disp k) → i = .cls ∨ ∃ x y n, i = .drw x y n) ∧
    ((∃ a, t.byteAt a ≠ s.byteAt a) → ∃ x, i = .ldB x ∨ i = .storeRegs x) ∧
    (t.index ≠ s.index → (∃ nnn, i = .ldI nnn) ∨ ∃ x, i = .addI x ∨ i = .ldF x) ∧
    t.config = s.config

/-- 20 R61 (derived there): a word placed in memory where the next fetch looks is the word the next tick runs. -/
def Obligations.PlacedWordIsTheNextToRun : Prop :=
  ∀ (s : State) (w : Nat) i, s.fault = none → s.pc.toNat % 2 = 0 → s.pc.toNat ≤ 0xFFE →
    Memory.wf s.config s.mem = true → decodeTableWord 16 w = some i →
    step (s.withFetchWord 16 w) = exec i (s.withFetchWord 16 w).advance

/-- 20 R61 (derived there): the bytes a block store writes are the word a fetch at `I` then reads. -/
def Obligations.StoreIsSeenByLaterFetch : Prop :=
  ∀ x s t, 1 ≤ x.toNat → s.index.toNat + x.toNat ≤ 0xFFF → Memory.wf s.config s.mem = true →
    exec (.storeRegs x) s = .next t → t.wordAt s.index.toNat = joinBytes (s.getReg 0) (s.getReg 1)

/-! ### Invariants -/

/-- The invariant holds right after reset. -/
def Obligations.ResetMeetsTheInvariant : Prop :=
  MachineInv State.reset

/-- Every tick keeps the invariant: legal parameters, canonical memory within the address space (20 R50), the stack within
its depth and holding return addresses (10 R31, R27), `pc` at most 0x10FE (10 R27, derived there). -/
def Obligations.EveryTickKeepsTheInvariant : Prop :=
  ∀ s t, MachineInv s → step s = .next t → MachineInv t

/-- The invariant holds in every state a session reaches: from any legal parameters and any ROM that fits, through ticks, key
and timer events and resets in any order (70 R270, R276). -/
def Obligations.EverySessionStateMeetsTheInvariant : Prop :=
  ∀ s, Reachable s → MachineInv s

/-- Memories in canonical form that read alike are the same data (the model's form of memory: log entry 7). -/
def Obligations.CanonicalMemoriesThatReadAlikeAreEqual : Prop :=
  ∀ c m m', Memory.wf c m = true → Memory.wf c m' = true → (∀ a, Memory.read c m a = Memory.read c m' a) → m = m'

/-- 70 R280 with decision D27: a core at rest stays as it is. -/
def Obligations.CoreAtRestStays : Prop :=
  ∀ s, AtRest s → step s = .next s

/-! ### Control transfer -/

/-- 41 R121: RET pops into `pc`; on an empty stack it takes StackUnderflow, and `SP` and `pc` stay.  The fault's form is
decision D17 and log entries 4 and 5. -/
def Obligations.RetPopsOrUnderflows : Prop :=
  ∀ s : State,
    (∀ a rest, s.stack = a :: rest →
      ∃ t, exec .ret s = .next t ∧ t.pc = a ∧ t.stack = rest ∧ Frame [.pc, .stack] s t) ∧
    (s.stack = [] → ∃ t, exec .ret s = .next t ∧ t.fault = some (.stackUnderflow (s.pc - 2)) ∧ Frame [.fault] s t)

/-- 41 R122: JP sets `pc` to `nnn` and changes nothing else. -/
def Obligations.JumpSetsPc : Prop :=
  ∀ nnn s, ∃ t, exec (.jp nnn) s = .next t ∧ t.pc.toNat = nnn.toNat ∧ Frame [.pc] s t

/-- 41 R123: CALL pushes the advanced `pc` and jumps; on a full stack it takes StackOverflow, and the stack and `pc` stay.
Its words are those of `2nnn`.  The fault's form, a next state with the latch set whose record holds `pc - 2`, is decision D17
and log entries 4 and 5. -/
def Obligations.CallPushesOrOverflows : Prop :=
  SelectedBy 0xF000 0x2000 (fun f => .call f.nnn) ∧
  ∀ nnn s,
    (s.sp < s.config.stackDepth →
      ∃ t, exec (.call nnn) s = .next t ∧ t.pc.toNat = nnn.toNat ∧ t.stack = s.pc :: s.stack ∧ Frame [.pc, .stack] s t) ∧
    (s.config.stackDepth ≤ s.sp →
      ∃ t, exec (.call nnn) s = .next t ∧ t.fault = some (.stackOverflow (s.pc - 2)) ∧ Frame [.fault] s t)

/-- 10 R32: a CALL that succeeds and then a RET restore the pushed `pc` and the stack, and change nothing else. -/
def Obligations.RetUndoesCall : Prop :=
  ∀ nnn s t, s.sp < s.config.stackDepth → exec (.call nnn) s = .next t →
    ∃ u, exec .ret t = .next u ∧ u = s

/-- 41 R124, R125: the immediate skips, on equality and on inequality. -/
def Obligations.ImmediateSkips : Prop :=
  ∀ x nn s,
    (∃ t, exec (.seImm x nn) s = .next t ∧ t.pc = (if s.getReg x = nn then s.pc + 2 else s.pc) ∧ Frame [.pc] s t) ∧
    (∃ t, exec (.sneImm x nn) s = .next t ∧ t.pc = (if s.getReg x = nn then s.pc else s.pc + 2) ∧ Frame [.pc] s t)

/-- 41 R126, R127: the register skips, on equality and on inequality. -/
def Obligations.RegisterSkips : Prop :=
  ∀ x y s,
    (∃ t, exec (.seReg x y) s = .next t ∧ t.pc = (if s.getReg x = s.getReg y then s.pc + 2 else s.pc) ∧
      Frame [.pc] s t) ∧
    (∃ t, exec (.sneReg x y) s = .next t ∧ t.pc = (if s.getReg x = s.getReg y then s.pc else s.pc + 2) ∧
      Frame [.pc] s t)

/-- 41 R130 with decision D29: JP V0,nnn jumps to the whole sum of `V[0]` and `nnn`. -/
def Obligations.ComputedJumpAddsV0 : Prop :=
  ∀ nnn s, ∃ t, exec (.jpV0 nnn) s = .next t ∧ t.pc.toNat = (s.getReg 0).toNat + nnn.toNat ∧ Frame [.pc] s t

/-! ### Registers and arithmetic -/

/-- 42 R140: LD Vx,nn sets register `x` to `nn` and leaves everything else.  Its words are those of `6xnn`. -/
def Obligations.LoadImmediateSetsOneRegister : Prop :=
  SelectedBy 0xF000 0x6000 (fun f => .ldImm f.x f.nn) ∧
  ∀ x nn s, ∃ t, exec (.ldImm x nn) s = .next t ∧ t.getReg x = nn ∧ RegsKeptExcept [x] s t ∧ Frame [.v] s t

/-- 42 R141: ADD Vx,nn saturates at 255 and writes no flag. -/
def Obligations.AddImmediateSaturates : Prop :=
  ∀ x nn s, ∃ t, exec (.addImm x nn) s = .next t ∧
    (t.getReg x).toNat = min ((s.getReg x).toNat + nn.toNat) 255 ∧ RegsKeptExcept [x] s t ∧ Frame [.v] s t

/-- 42 R144 to R147: LD Vx,Vy copies a register; OR, AND and XOR work bit by bit on the old operands; none writes a
flag. -/
def Obligations.AssignAndBitwiseOperations : Prop :=
  ∀ x y s,
    (∃ t, exec (.ldReg x y) s = .next t ∧ t.getReg x = s.getReg y ∧ RegsKeptExcept [x] s t ∧ Frame [.v] s t) ∧
    (∃ t, exec (.orReg x y) s = .next t ∧
      (∀ k, (t.getReg x).getLsbD k = ((s.getReg x).getLsbD k || (s.getReg y).getLsbD k)) ∧
      RegsKeptExcept [x] s t ∧ Frame [.v] s t) ∧
    (∃ t, exec (.andReg x y) s = .next t ∧
      (∀ k, (t.getReg x).getLsbD k = ((s.getReg x).getLsbD k && (s.getReg y).getLsbD k)) ∧
      RegsKeptExcept [x] s t ∧ Frame [.v] s t) ∧
    (∃ t, exec (.xorReg x y) s = .next t ∧
      (∀ k, (t.getReg x).getLsbD k = ((s.getReg x).getLsbD k ^^ (s.getReg y).getLsbD k)) ∧
      RegsKeptExcept [x] s t ∧ Frame [.v] s t)

/-- 42 R148 with decision D9 for `x` = 0xF: ADD Vx,Vy saturates; `VF` is 1 exactly on unsigned overflow, and it is what
`VF` holds when it is the destination too. -/
def Obligations.AddRegisterSaturatesWithCarry : Prop :=
  ∀ x y s, ∃ t, exec (.addReg x y) s = .next t ∧
    (x ≠ 0xF → (t.getReg x).toNat = min ((s.getReg x).toNat + (s.getReg y).toNat) 255) ∧
    t.getReg 0xF = (if 255 < (s.getReg x).toNat + (s.getReg y).toNat then 1 else 0) ∧
    RegsKeptExcept [x, 0xF] s t ∧ Frame [.v] s t

/-- 42 R149, R151 with decisions D9 and D10: SUB and SUBN wrap modulo 256; `VF` is 1 exactly when the minuend is not the
smaller (equal operands give 1). -/
def Obligations.SubtractionsWrapWithNoBorrow : Prop :=
  ∀ x y s,
    (∃ t, exec (.sub x y) s = .next t ∧
      (x ≠ 0xF → ((t.getReg x).toNat : Int) = ((s.getReg x).toNat - (s.getReg y).toNat : Int) % 256) ∧
      t.getReg 0xF = (if (s.getReg y).toNat ≤ (s.getReg x).toNat then 1 else 0) ∧
      RegsKeptExcept [x, 0xF] s t ∧ Frame [.v] s t) ∧
    (∃ t, exec (.subn x y) s = .next t ∧
      (x ≠ 0xF → ((t.getReg x).toNat : Int) = ((s.getReg y).toNat - (s.getReg x).toNat : Int) % 256) ∧
      t.getReg 0xF = (if (s.getReg x).toNat ≤ (s.getReg y).toNat then 1 else 0) ∧
      RegsKeptExcept [x, 0xF] s t ∧ Frame [.v] s t)

/-- 42 R150, R152 with decision D9 for `x` = 0xF: the shifts, in place and by one; `VF` is the bit shifted out. -/
def Obligations.ShiftsByOneIntoVF : Prop :=
  ∀ x s,
    (∃ t, exec (.shr x) s = .next t ∧ (x ≠ 0xF → (t.getReg x).toNat = (s.getReg x).toNat / 2) ∧
      (t.getReg 0xF).toNat = (s.getReg x).toNat % 2 ∧ RegsKeptExcept [x, 0xF] s t ∧ Frame [.v] s t) ∧
    (∃ t, exec (.shl x) s = .next t ∧ (x ≠ 0xF → (t.getReg x).toNat = (s.getReg x).toNat * 2 % 256) ∧
      (t.getReg 0xF).toNat = (s.getReg x).toNat / 128 ∧ RegsKeptExcept [x, 0xF] s t ∧ Frame [.v] s t)

/-- 42 R153 with decision D16: RND stores the draw's byte masked by `nn`.  `Config.randomByte` is a free value: the
statement holds whatever it is (log entry 3). -/
def Obligations.RandomByteIsMasked : Prop :=
  ∀ x nn s, ∃ t, exec (.rnd x nn) s = .next t ∧ t.getReg x = Config.randomByte s.draws &&& nn ∧
    RegsKeptExcept [x] s t ∧ Frame [.v, .draws] s t

/-! ### Index register and memory -/

/-- 43 R170: LD I,nnn. -/
def Obligations.SetIndex : Prop :=
  ∀ nnn s, ∃ t, exec (.ldI nnn) s = .next t ∧ t.index.toNat = nnn.toNat ∧ Frame [.index] s t

/-- 43 R171 with decision D22: ADD I,Vx saturates at 0xFFFF and writes no flag. -/
def Obligations.AddToIndexSaturates : Prop :=
  ∀ x s, ∃ t, exec (.addI x) s = .next t ∧
    t.index.toNat = min (s.index.toNat + (s.getReg x).toNat) 0xFFFF ∧ Frame [.index] s t

/-- 43 R172: LD F,Vx gives the glyph address of the register's low nibble. -/
def Obligations.GlyphAddressOfLowNibble : Prop :=
  ∀ x s, ∃ t, exec (.ldF x) s = .next t ∧
    t.index.toNat = s.config.fontBase.val + (s.getReg x).toNat % 16 * 5 ∧ Frame [.index] s t

/-- 43 R173: LD B,Vx stores hundreds, tens and ones at `I`, `I+1`, `I+2`, or takes its fault with no byte written.  The
stored-at address is `I`, read before the store.  The fault's form: decision D17, log entries 4 and 5. -/
def Obligations.BcdStoredOrOutOfBounds : Prop :=
  ∀ x s, Memory.wf s.config s.mem = true →
    (s.index.toNat + 2 ≤ 0xFFF → ∃ t, exec (.ldB x) s = .next t ∧
      (t.byteAt s.index.toNat).toNat = (s.getReg x).toNat / 100 ∧
      (t.byteAt (s.index.toNat + 1)).toNat = (s.getReg x).toNat / 10 % 10 ∧
      (t.byteAt (s.index.toNat + 2)).toNat = (s.getReg x).toNat % 10 ∧
      BytesKeptOutside s.index.toNat 3 s t ∧ Frame [.mem] s t) ∧
    (0xFFF < s.index.toNat + 2 → ∃ t, exec (.ldB x) s = .next t ∧
      t.fault = some (.outOfBoundsMemoryAccess .execute (s.pc - 2) (s.index.toNat + 2)) ∧ Frame [.fault] s t)

/-- 43 R174 with decision D20 (`I` stays): LD [I],Vx stores `V[0] .. V[x]` at `I .. I+x`, or takes its fault with no byte
written.  The fault's form: decision D17, log entries 4 and 5. -/
def Obligations.BlockStoreOrOutOfBounds : Prop :=
  ∀ x s, Memory.wf s.config s.mem = true →
    (s.index.toNat + x.toNat ≤ 0xFFF → ∃ t, exec (.storeRegs x) s = .next t ∧
      (∀ r : Nibble, r.toNat ≤ x.toNat → t.byteAt (s.index.toNat + r.toNat) = s.getReg r) ∧
      BytesKeptOutside s.index.toNat (x.toNat + 1) s t ∧ Frame [.mem] s t) ∧
    (0xFFF < s.index.toNat + x.toNat → ∃ t, exec (.storeRegs x) s = .next t ∧
      t.fault = some (.outOfBoundsMemoryAccess .execute (s.pc - 2) (s.index.toNat + x.toNat)) ∧ Frame [.fault] s t)

/-- 43 R175 with decision D20 (`I` stays): LD Vx,[I] loads `V[0] .. V[x]` from `I .. I+x`, or takes its fault with no register
changed.  The fault's form: decision D17, log entries 4 and 5. -/
def Obligations.BlockLoadOrOutOfBounds : Prop :=
  ∀ x s,
    (s.index.toNat + x.toNat ≤ 0xFFF → ∃ t, exec (.loadRegs x) s = .next t ∧
      (∀ r : Nibble, r.toNat ≤ x.toNat → t.getReg r = s.byteAt (s.index.toNat + r.toNat)) ∧
      (∀ r : Nibble, x.toNat < r.toNat → t.getReg r = s.getReg r) ∧ Frame [.v] s t) ∧
    (0xFFF < s.index.toNat + x.toNat → ∃ t, exec (.loadRegs x) s = .next t ∧
      t.fault = some (.outOfBoundsMemoryAccess .execute (s.pc - 2) (s.index.toNat + x.toNat)) ∧ Frame [.fault] s t)

/-- A block load after a block store of the same registers gives every register back (43 R174, R175, D20). -/
def Obligations.BlockLoadUndoesBlockStore : Prop :=
  ∀ x s t u, Memory.wf s.config s.mem = true → s.index.toNat + x.toNat ≤ 0xFFF →
    exec (.storeRegs x) s = .next t → exec (.loadRegs x) t = .next u → ∀ r, u.getReg r = s.getReg r

/-! ### Display -/

/-- 44 R191: CLS turns every cell OFF and leaves `VF`. -/
def Obligations.ClearTurnsEveryCellOff : Prop :=
  ∀ s, ∃ t, exec .cls s = .next t ∧ (∀ i, Display.cell t.disp i = false) ∧ Frame [.disp] s t

/-- 44 R192 to R196 with decisions D11, D12 and D13: every cell on the screen is XORed with the sprite's bit over it, clipped
pixels are over no cell, and `VF` is 1 exactly when some ON cell lay under a 1; `VF` is written with a height of 0 too.  A
DRW whose source bytes do not all lie in memory takes its fault, and neither the display nor `VF` changes.
The fault's form: decision D17, log entries 4 and 5. -/
def Obligations.DrawXorsTheSpriteOrOutOfBounds : Prop :=
  ∀ x y n s,
    ((n.toNat = 0 ∨ s.index.toNat + n.toNat - 1 ≤ 0xFFF) →
      ∃ t, exec (.drw x y n) s = .next t ∧
        (∀ cx cy, cx < 64 → cy < 32 →
          Display.cell t.disp (cx + cy * 64) = (Display.cell s.disp (cx + cy * 64) ^^ s.spriteBitAt x y n cx cy)) ∧
        ((t.getReg 0xF = 1 ∧
            ∃ cx cy, cx < 64 ∧ cy < 32 ∧ Display.cell s.disp (cx + cy * 64) = true ∧ s.spriteBitAt x y n cx cy = true) ∨
          (t.getReg 0xF = 0 ∧
            ∀ cx cy, cx < 64 → cy < 32 → Display.cell s.disp (cx + cy * 64) = true →
              s.spriteBitAt x y n cx cy = false)) ∧
        RegsKeptExcept [0xF] s t ∧ Frame [.v, .disp] s t) ∧
    (1 ≤ n.toNat → 0xFFF < s.index.toNat + n.toNat - 1 →
      ∃ t, exec (.drw x y n) s = .next t ∧
        t.fault = some (.outOfBoundsMemoryAccess .execute (s.pc - 2) (s.index.toNat + n.toNat - 1)) ∧ Frame [.fault] s t)

/-- 44 R198 (derived there): drawing the same sprite twice restores the display, and the second `VF` is 1 exactly when some 1
of the sprite lay on a cell that was OFF before the first. -/
def Obligations.DrawingTwiceRestoresTheDisplay : Prop :=
  ∀ x y n s t u, x ≠ 0xF → y ≠ 0xF → (n.toNat = 0 ∨ s.index.toNat + n.toNat - 1 ≤ 0xFFF) →
    exec (.drw x y n) s = .next t → exec (.drw x y n) t = .next u →
    u.disp = s.disp ∧
    (u.getReg 0xF = 1 ↔
      ∃ cx cy, cx < 64 ∧ cy < 32 ∧ Display.cell s.disp (cx + cy * 64) = false ∧ s.spriteBitAt x y n cx cy = true)

/-! ### Keypad and timers -/

/-- 45 R210, R211 with decision D14: the key skips, on the key's level; a key number above 15 takes KeyIndexOutOfRange and
`pc` stays.  The fault's form: decision D17, log entries 4 and 5. -/
def Obligations.KeySkipsOrBadKey : Prop :=
  ∀ x s,
    ((s.getReg x).toNat ≤ 15 →
      (∃ t, exec (.skp x) s = .next t ∧
        t.pc = (if s.keyDown (s.getReg x).toNat = true then s.pc + 2 else s.pc) ∧ Frame [.pc] s t) ∧
      (∃ t, exec (.sknp x) s = .next t ∧
        t.pc = (if s.keyDown (s.getReg x).toNat = true then s.pc else s.pc + 2) ∧ Frame [.pc] s t)) ∧
    (15 < (s.getReg x).toNat →
      (∃ t, exec (.skp x) s = .next t ∧ t.fault = some (.keyIndexOutOfRange (s.pc - 2) (s.getReg x)) ∧
        Frame [.fault] s t) ∧
      (∃ t, exec (.sknp x) s = .next t ∧ t.fault = some (.keyIndexOutOfRange (s.pc - 2) (s.getReg x)) ∧
        Frame [.fault] s t))

/-- 45 R212 with decision D15: LD Vx,K stores the least pressed key, or with no key down puts `pc` back and changes nothing
else. -/
def Obligations.KeyWaitStoresLeastKeyOrRewinds : Prop :=
  ∀ x s,
    (∀ k : Nat, k ≤ 15 → s.keyDown k = true → (∀ j < k, s.keyDown j = false) →
      ∃ t, exec (.ldVxK x) s = .next t ∧ (t.getReg x).toNat = k ∧ RegsKeptExcept [x] s t ∧ Frame [.v] s t) ∧
    ((∀ k ≤ 15, s.keyDown k = false) → ∃ t, exec (.ldVxK x) s = .next t ∧ t.pc = s.pc - 2 ∧ Frame [.pc] s t)

/-- 45 R212 with decision D15: with no key down, the tick that runs LD Vx,K changes nothing at all. -/
def Obligations.KeyWaitTickChangesNothing : Prop :=
  ∀ s w x, Fetches s w → decodeWord w = .ok (.ldVxK x) → (∀ k ≤ 15, s.keyDown k = false) → step s = .next s

/-- 45 R214 to R216: the three timer moves. -/
def Obligations.TimerMoves : Prop :=
  ∀ x s,
    (∃ t, exec (.ldVxDT x) s = .next t ∧ t.getReg x = s.dt ∧ RegsKeptExcept [x] s t ∧ Frame [.v] s t) ∧
    (∃ t, exec (.ldDTVx x) s = .next t ∧ t.dt = s.getReg x ∧ Frame [.dt] s t) ∧
    (∃ t, exec (.ldSTVx x) s = .next t ∧ t.st = s.getReg x ∧ Frame [.st] s t)
end

