-- ==== Sys2Proof/Laws/State.lean ====
section
/-! SUPPORT. What each setter does to each field, true by rfl, and what it does to a register read: no later proof unfolds
a record update. -/

namespace Sys2Proof.Machine

open Sys2Proof

section
variable (s : State)

@[simp] theorem setReg_v (x : Nibble) (b : Byte) : (s.setReg x b).v = s.v.set x.toNat b (by have := x.isLt; omega) := rfl
@[simp] theorem setReg_pc (x : Nibble) (b : Byte) : (s.setReg x b).pc = s.pc := rfl
@[simp] theorem setReg_index (x : Nibble) (b : Byte) : (s.setReg x b).index = s.index := rfl
@[simp] theorem setReg_dt (x : Nibble) (b : Byte) : (s.setReg x b).dt = s.dt := rfl
@[simp] theorem setReg_st (x : Nibble) (b : Byte) : (s.setReg x b).st = s.st := rfl
@[simp] theorem setReg_stack (x : Nibble) (b : Byte) : (s.setReg x b).stack = s.stack := rfl
@[simp] theorem setReg_mem (x : Nibble) (b : Byte) : (s.setReg x b).mem = s.mem := rfl
@[simp] theorem setReg_disp (x : Nibble) (b : Byte) : (s.setReg x b).disp = s.disp := rfl
@[simp] theorem setReg_keys (x : Nibble) (b : Byte) : (s.setReg x b).keys = s.keys := rfl
@[simp] theorem setReg_fault (x : Nibble) (b : Byte) : (s.setReg x b).fault = s.fault := rfl
@[simp] theorem setReg_diagLog (x : Nibble) (b : Byte) : (s.setReg x b).diagLog = s.diagLog := rfl
@[simp] theorem setReg_draws (x : Nibble) (b : Byte) : (s.setReg x b).draws = s.draws := rfl
@[simp] theorem setReg_config (x : Nibble) (b : Byte) : (s.setReg x b).config = s.config := rfl

@[simp] theorem setRegs_v (v : Vector Byte 16) : (s.setRegs v).v = v := rfl
@[simp] theorem setRegs_pc (v : Vector Byte 16) : (s.setRegs v).pc = s.pc := rfl
@[simp] theorem setRegs_index (v : Vector Byte 16) : (s.setRegs v).index = s.index := rfl
@[simp] theorem setRegs_dt (v : Vector Byte 16) : (s.setRegs v).dt = s.dt := rfl
@[simp] theorem setRegs_st (v : Vector Byte 16) : (s.setRegs v).st = s.st := rfl
@[simp] theorem setRegs_stack (v : Vector Byte 16) : (s.setRegs v).stack = s.stack := rfl
@[simp] theorem setRegs_mem (v : Vector Byte 16) : (s.setRegs v).mem = s.mem := rfl
@[simp] theorem setRegs_disp (v : Vector Byte 16) : (s.setRegs v).disp = s.disp := rfl
@[simp] theorem setRegs_keys (v : Vector Byte 16) : (s.setRegs v).keys = s.keys := rfl
@[simp] theorem setRegs_fault (v : Vector Byte 16) : (s.setRegs v).fault = s.fault := rfl
@[simp] theorem setRegs_diagLog (v : Vector Byte 16) : (s.setRegs v).diagLog = s.diagLog := rfl
@[simp] theorem setRegs_draws (v : Vector Byte 16) : (s.setRegs v).draws = s.draws := rfl
@[simp] theorem setRegs_config (v : Vector Byte 16) : (s.setRegs v).config = s.config := rfl

@[simp] theorem setPc_v (a : Addr) : (s.setPc a).v = s.v := rfl
@[simp] theorem setPc_pc (a : Addr) : (s.setPc a).pc = a := rfl
@[simp] theorem setPc_index (a : Addr) : (s.setPc a).index = s.index := rfl
@[simp] theorem setPc_dt (a : Addr) : (s.setPc a).dt = s.dt := rfl
@[simp] theorem setPc_st (a : Addr) : (s.setPc a).st = s.st := rfl
@[simp] theorem setPc_stack (a : Addr) : (s.setPc a).stack = s.stack := rfl
@[simp] theorem setPc_mem (a : Addr) : (s.setPc a).mem = s.mem := rfl
@[simp] theorem setPc_disp (a : Addr) : (s.setPc a).disp = s.disp := rfl
@[simp] theorem setPc_keys (a : Addr) : (s.setPc a).keys = s.keys := rfl
@[simp] theorem setPc_fault (a : Addr) : (s.setPc a).fault = s.fault := rfl
@[simp] theorem setPc_diagLog (a : Addr) : (s.setPc a).diagLog = s.diagLog := rfl
@[simp] theorem setPc_draws (a : Addr) : (s.setPc a).draws = s.draws := rfl
@[simp] theorem setPc_config (a : Addr) : (s.setPc a).config = s.config := rfl

@[simp] theorem setIndex_v (a : Addr) : (s.setIndex a).v = s.v := rfl
@[simp] theorem setIndex_pc (a : Addr) : (s.setIndex a).pc = s.pc := rfl
@[simp] theorem setIndex_index (a : Addr) : (s.setIndex a).index = a := rfl
@[simp] theorem setIndex_dt (a : Addr) : (s.setIndex a).dt = s.dt := rfl
@[simp] theorem setIndex_st (a : Addr) : (s.setIndex a).st = s.st := rfl
@[simp] theorem setIndex_stack (a : Addr) : (s.setIndex a).stack = s.stack := rfl
@[simp] theorem setIndex_mem (a : Addr) : (s.setIndex a).mem = s.mem := rfl
@[simp] theorem setIndex_disp (a : Addr) : (s.setIndex a).disp = s.disp := rfl
@[simp] theorem setIndex_keys (a : Addr) : (s.setIndex a).keys = s.keys := rfl
@[simp] theorem setIndex_fault (a : Addr) : (s.setIndex a).fault = s.fault := rfl
@[simp] theorem setIndex_diagLog (a : Addr) : (s.setIndex a).diagLog = s.diagLog := rfl
@[simp] theorem setIndex_draws (a : Addr) : (s.setIndex a).draws = s.draws := rfl
@[simp] theorem setIndex_config (a : Addr) : (s.setIndex a).config = s.config := rfl

@[simp] theorem setDT_v (b : Byte) : (s.setDT b).v = s.v := rfl
@[simp] theorem setDT_pc (b : Byte) : (s.setDT b).pc = s.pc := rfl
@[simp] theorem setDT_index (b : Byte) : (s.setDT b).index = s.index := rfl
@[simp] theorem setDT_dt (b : Byte) : (s.setDT b).dt = b := rfl
@[simp] theorem setDT_st (b : Byte) : (s.setDT b).st = s.st := rfl
@[simp] theorem setDT_stack (b : Byte) : (s.setDT b).stack = s.stack := rfl
@[simp] theorem setDT_mem (b : Byte) : (s.setDT b).mem = s.mem := rfl
@[simp] theorem setDT_disp (b : Byte) : (s.setDT b).disp = s.disp := rfl
@[simp] theorem setDT_keys (b : Byte) : (s.setDT b).keys = s.keys := rfl
@[simp] theorem setDT_fault (b : Byte) : (s.setDT b).fault = s.fault := rfl
@[simp] theorem setDT_diagLog (b : Byte) : (s.setDT b).diagLog = s.diagLog := rfl
@[simp] theorem setDT_draws (b : Byte) : (s.setDT b).draws = s.draws := rfl
@[simp] theorem setDT_config (b : Byte) : (s.setDT b).config = s.config := rfl

@[simp] theorem setST_v (b : Byte) : (s.setST b).v = s.v := rfl
@[simp] theorem setST_pc (b : Byte) : (s.setST b).pc = s.pc := rfl
@[simp] theorem setST_index (b : Byte) : (s.setST b).index = s.index := rfl
@[simp] theorem setST_dt (b : Byte) : (s.setST b).dt = s.dt := rfl
@[simp] theorem setST_st (b : Byte) : (s.setST b).st = b := rfl
@[simp] theorem setST_stack (b : Byte) : (s.setST b).stack = s.stack := rfl
@[simp] theorem setST_mem (b : Byte) : (s.setST b).mem = s.mem := rfl
@[simp] theorem setST_disp (b : Byte) : (s.setST b).disp = s.disp := rfl
@[simp] theorem setST_keys (b : Byte) : (s.setST b).keys = s.keys := rfl
@[simp] theorem setST_fault (b : Byte) : (s.setST b).fault = s.fault := rfl
@[simp] theorem setST_diagLog (b : Byte) : (s.setST b).diagLog = s.diagLog := rfl
@[simp] theorem setST_draws (b : Byte) : (s.setST b).draws = s.draws := rfl
@[simp] theorem setST_config (b : Byte) : (s.setST b).config = s.config := rfl

@[simp] theorem setStack_v (es : List Addr) : (s.setStack es).v = s.v := rfl
@[simp] theorem setStack_pc (es : List Addr) : (s.setStack es).pc = s.pc := rfl
@[simp] theorem setStack_index (es : List Addr) : (s.setStack es).index = s.index := rfl
@[simp] theorem setStack_dt (es : List Addr) : (s.setStack es).dt = s.dt := rfl
@[simp] theorem setStack_st (es : List Addr) : (s.setStack es).st = s.st := rfl
@[simp] theorem setStack_stack (es : List Addr) : (s.setStack es).stack = es := rfl
@[simp] theorem setStack_mem (es : List Addr) : (s.setStack es).mem = s.mem := rfl
@[simp] theorem setStack_disp (es : List Addr) : (s.setStack es).disp = s.disp := rfl
@[simp] theorem setStack_keys (es : List Addr) : (s.setStack es).keys = s.keys := rfl
@[simp] theorem setStack_fault (es : List Addr) : (s.setStack es).fault = s.fault := rfl
@[simp] theorem setStack_diagLog (es : List Addr) : (s.setStack es).diagLog = s.diagLog := rfl
@[simp] theorem setStack_draws (es : List Addr) : (s.setStack es).draws = s.draws := rfl
@[simp] theorem setStack_config (es : List Addr) : (s.setStack es).config = s.config := rfl

@[simp] theorem setMem_v (m : Memory) : (s.setMem m).v = s.v := rfl
@[simp] theorem setMem_pc (m : Memory) : (s.setMem m).pc = s.pc := rfl
@[simp] theorem setMem_index (m : Memory) : (s.setMem m).index = s.index := rfl
@[simp] theorem setMem_dt (m : Memory) : (s.setMem m).dt = s.dt := rfl
@[simp] theorem setMem_st (m : Memory) : (s.setMem m).st = s.st := rfl
@[simp] theorem setMem_stack (m : Memory) : (s.setMem m).stack = s.stack := rfl
@[simp] theorem setMem_mem (m : Memory) : (s.setMem m).mem = m := rfl
@[simp] theorem setMem_disp (m : Memory) : (s.setMem m).disp = s.disp := rfl
@[simp] theorem setMem_keys (m : Memory) : (s.setMem m).keys = s.keys := rfl
@[simp] theorem setMem_fault (m : Memory) : (s.setMem m).fault = s.fault := rfl
@[simp] theorem setMem_diagLog (m : Memory) : (s.setMem m).diagLog = s.diagLog := rfl
@[simp] theorem setMem_draws (m : Memory) : (s.setMem m).draws = s.draws := rfl
@[simp] theorem setMem_config (m : Memory) : (s.setMem m).config = s.config := rfl

@[simp] theorem setDisp_v (d : Display) : (s.setDisp d).v = s.v := rfl
@[simp] theorem setDisp_pc (d : Display) : (s.setDisp d).pc = s.pc := rfl
@[simp] theorem setDisp_index (d : Display) : (s.setDisp d).index = s.index := rfl
@[simp] theorem setDisp_dt (d : Display) : (s.setDisp d).dt = s.dt := rfl
@[simp] theorem setDisp_st (d : Display) : (s.setDisp d).st = s.st := rfl
@[simp] theorem setDisp_stack (d : Display) : (s.setDisp d).stack = s.stack := rfl
@[simp] theorem setDisp_mem (d : Display) : (s.setDisp d).mem = s.mem := rfl
@[simp] theorem setDisp_disp (d : Display) : (s.setDisp d).disp = d := rfl
@[simp] theorem setDisp_keys (d : Display) : (s.setDisp d).keys = s.keys := rfl
@[simp] theorem setDisp_fault (d : Display) : (s.setDisp d).fault = s.fault := rfl
@[simp] theorem setDisp_diagLog (d : Display) : (s.setDisp d).diagLog = s.diagLog := rfl
@[simp] theorem setDisp_draws (d : Display) : (s.setDisp d).draws = s.draws := rfl
@[simp] theorem setDisp_config (d : Display) : (s.setDisp d).config = s.config := rfl

@[simp] theorem setFault_v (r : FaultRecord) : (s.setFault r).v = s.v := rfl
@[simp] theorem setFault_pc (r : FaultRecord) : (s.setFault r).pc = s.pc := rfl
@[simp] theorem setFault_index (r : FaultRecord) : (s.setFault r).index = s.index := rfl
@[simp] theorem setFault_dt (r : FaultRecord) : (s.setFault r).dt = s.dt := rfl
@[simp] theorem setFault_st (r : FaultRecord) : (s.setFault r).st = s.st := rfl
@[simp] theorem setFault_stack (r : FaultRecord) : (s.setFault r).stack = s.stack := rfl
@[simp] theorem setFault_mem (r : FaultRecord) : (s.setFault r).mem = s.mem := rfl
@[simp] theorem setFault_disp (r : FaultRecord) : (s.setFault r).disp = s.disp := rfl
@[simp] theorem setFault_keys (r : FaultRecord) : (s.setFault r).keys = s.keys := rfl
@[simp] theorem setFault_fault (r : FaultRecord) : (s.setFault r).fault = some r := rfl
@[simp] theorem setFault_diagLog (r : FaultRecord) : (s.setFault r).diagLog = s.diagLog := rfl
@[simp] theorem setFault_draws (r : FaultRecord) : (s.setFault r).draws = s.draws := rfl
@[simp] theorem setFault_config (r : FaultRecord) : (s.setFault r).config = s.config := rfl

@[simp] theorem addDiag_v (d : DiagRecord) : (s.addDiag d).v = s.v := rfl
@[simp] theorem addDiag_pc (d : DiagRecord) : (s.addDiag d).pc = s.pc := rfl
@[simp] theorem addDiag_index (d : DiagRecord) : (s.addDiag d).index = s.index := rfl
@[simp] theorem addDiag_dt (d : DiagRecord) : (s.addDiag d).dt = s.dt := rfl
@[simp] theorem addDiag_st (d : DiagRecord) : (s.addDiag d).st = s.st := rfl
@[simp] theorem addDiag_stack (d : DiagRecord) : (s.addDiag d).stack = s.stack := rfl
@[simp] theorem addDiag_mem (d : DiagRecord) : (s.addDiag d).mem = s.mem := rfl
@[simp] theorem addDiag_disp (d : DiagRecord) : (s.addDiag d).disp = s.disp := rfl
@[simp] theorem addDiag_keys (d : DiagRecord) : (s.addDiag d).keys = s.keys := rfl
@[simp] theorem addDiag_fault (d : DiagRecord) : (s.addDiag d).fault = s.fault := rfl
@[simp] theorem addDiag_diagLog (d : DiagRecord) : (s.addDiag d).diagLog = s.diagLog ++ [d] := rfl
@[simp] theorem addDiag_draws (d : DiagRecord) : (s.addDiag d).draws = s.draws := rfl
@[simp] theorem addDiag_config (d : DiagRecord) : (s.addDiag d).config = s.config := rfl

@[simp] theorem countDraw_v : s.countDraw.v = s.v := rfl
@[simp] theorem countDraw_pc : s.countDraw.pc = s.pc := rfl
@[simp] theorem countDraw_index : s.countDraw.index = s.index := rfl
@[simp] theorem countDraw_dt : s.countDraw.dt = s.dt := rfl
@[simp] theorem countDraw_st : s.countDraw.st = s.st := rfl
@[simp] theorem countDraw_stack : s.countDraw.stack = s.stack := rfl
@[simp] theorem countDraw_mem : s.countDraw.mem = s.mem := rfl
@[simp] theorem countDraw_disp : s.countDraw.disp = s.disp := rfl
@[simp] theorem countDraw_keys : s.countDraw.keys = s.keys := rfl
@[simp] theorem countDraw_fault : s.countDraw.fault = s.fault := rfl
@[simp] theorem countDraw_diagLog : s.countDraw.diagLog = s.diagLog := rfl
@[simp] theorem countDraw_draws : s.countDraw.draws = s.draws + 1 := rfl
@[simp] theorem countDraw_config : s.countDraw.config = s.config := rfl

@[simp] theorem advance_v : s.advance.v = s.v := rfl
@[simp] theorem advance_pc : s.advance.pc = s.pc + 2 := rfl
@[simp] theorem advance_index : s.advance.index = s.index := rfl
@[simp] theorem advance_dt : s.advance.dt = s.dt := rfl
@[simp] theorem advance_st : s.advance.st = s.st := rfl
@[simp] theorem advance_stack : s.advance.stack = s.stack := rfl
@[simp] theorem advance_mem : s.advance.mem = s.mem := rfl
@[simp] theorem advance_disp : s.advance.disp = s.disp := rfl
@[simp] theorem advance_keys : s.advance.keys = s.keys := rfl
@[simp] theorem advance_fault : s.advance.fault = s.fault := rfl
@[simp] theorem advance_diagLog : s.advance.diagLog = s.diagLog := rfl
@[simp] theorem advance_draws : s.advance.draws = s.draws := rfl
@[simp] theorem advance_config : s.advance.config = s.config := rfl

@[simp] theorem rewind_v : s.rewind.v = s.v := rfl
@[simp] theorem rewind_pc : s.rewind.pc = s.pc - 2 := rfl
@[simp] theorem rewind_index : s.rewind.index = s.index := rfl
@[simp] theorem rewind_dt : s.rewind.dt = s.dt := rfl
@[simp] theorem rewind_st : s.rewind.st = s.st := rfl
@[simp] theorem rewind_stack : s.rewind.stack = s.stack := rfl
@[simp] theorem rewind_mem : s.rewind.mem = s.mem := rfl
@[simp] theorem rewind_disp : s.rewind.disp = s.disp := rfl
@[simp] theorem rewind_keys : s.rewind.keys = s.keys := rfl
@[simp] theorem rewind_fault : s.rewind.fault = s.fault := rfl
@[simp] theorem rewind_diagLog : s.rewind.diagLog = s.diagLog := rfl
@[simp] theorem rewind_draws : s.rewind.draws = s.draws := rfl
@[simp] theorem rewind_config : s.rewind.config = s.config := rfl

@[simp] theorem storeBytes_v (a : Nat) (bs : List Byte) : (s.storeBytes a bs).v = s.v := rfl
@[simp] theorem storeBytes_pc (a : Nat) (bs : List Byte) : (s.storeBytes a bs).pc = s.pc := rfl
@[simp] theorem storeBytes_index (a : Nat) (bs : List Byte) : (s.storeBytes a bs).index = s.index := rfl
@[simp] theorem storeBytes_dt (a : Nat) (bs : List Byte) : (s.storeBytes a bs).dt = s.dt := rfl
@[simp] theorem storeBytes_st (a : Nat) (bs : List Byte) : (s.storeBytes a bs).st = s.st := rfl
@[simp] theorem storeBytes_stack (a : Nat) (bs : List Byte) : (s.storeBytes a bs).stack = s.stack := rfl
@[simp] theorem storeBytes_mem (a : Nat) (bs : List Byte) : (s.storeBytes a bs).mem = Memory.writeBytes s.config s.mem a bs := rfl
@[simp] theorem storeBytes_disp (a : Nat) (bs : List Byte) : (s.storeBytes a bs).disp = s.disp := rfl
@[simp] theorem storeBytes_keys (a : Nat) (bs : List Byte) : (s.storeBytes a bs).keys = s.keys := rfl
@[simp] theorem storeBytes_fault (a : Nat) (bs : List Byte) : (s.storeBytes a bs).fault = s.fault := rfl
@[simp] theorem storeBytes_diagLog (a : Nat) (bs : List Byte) : (s.storeBytes a bs).diagLog = s.diagLog := rfl
@[simp] theorem storeBytes_draws (a : Nat) (bs : List Byte) : (s.storeBytes a bs).draws = s.draws := rfl
@[simp] theorem storeBytes_config (a : Nat) (bs : List Byte) : (s.storeBytes a bs).config = s.config := rfl

@[simp] theorem timerDecrement_v : s.timerDecrement.v = s.v := rfl
@[simp] theorem timerDecrement_pc : s.timerDecrement.pc = s.pc := rfl
@[simp] theorem timerDecrement_index : s.timerDecrement.index = s.index := rfl
@[simp] theorem timerDecrement_dt : s.timerDecrement.dt = countDown s.dt := rfl
@[simp] theorem timerDecrement_st : s.timerDecrement.st = countDown s.st := rfl
@[simp] theorem timerDecrement_stack : s.timerDecrement.stack = s.stack := rfl
@[simp] theorem timerDecrement_mem : s.timerDecrement.mem = s.mem := rfl
@[simp] theorem timerDecrement_disp : s.timerDecrement.disp = s.disp := rfl
@[simp] theorem timerDecrement_keys : s.timerDecrement.keys = s.keys := rfl
@[simp] theorem timerDecrement_fault : s.timerDecrement.fault = s.fault := rfl
@[simp] theorem timerDecrement_diagLog : s.timerDecrement.diagLog = s.diagLog := rfl
@[simp] theorem timerDecrement_draws : s.timerDecrement.draws = s.draws := rfl
@[simp] theorem timerDecrement_config : s.timerDecrement.config = s.config := rfl

end

/-! ### Register, byte and key reads past a setter of another field -/

section
variable (s : State)

@[simp] theorem byteAt_setReg (x : Nibble) (b : Byte) (k : Nat) : (s.setReg x b).byteAt k = s.byteAt k := rfl
@[simp] theorem keyDown_setReg (x : Nibble) (b : Byte) (k : Nat) : (s.setReg x b).keyDown k = s.keyDown k := rfl
@[simp] theorem byteAt_setRegs (v : Vector Byte 16) (k : Nat) : (s.setRegs v).byteAt k = s.byteAt k := rfl
@[simp] theorem keyDown_setRegs (v : Vector Byte 16) (k : Nat) : (s.setRegs v).keyDown k = s.keyDown k := rfl
@[simp] theorem getReg_setPc (a : Addr) (j : Nibble) : (s.setPc a).getReg j = s.getReg j := rfl
@[simp] theorem byteAt_setPc (a : Addr) (k : Nat) : (s.setPc a).byteAt k = s.byteAt k := rfl
@[simp] theorem keyDown_setPc (a : Addr) (k : Nat) : (s.setPc a).keyDown k = s.keyDown k := rfl
@[simp] theorem getReg_setIndex (a : Addr) (j : Nibble) : (s.setIndex a).getReg j = s.getReg j := rfl
@[simp] theorem byteAt_setIndex (a : Addr) (k : Nat) : (s.setIndex a).byteAt k = s.byteAt k := rfl
@[simp] theorem keyDown_setIndex (a : Addr) (k : Nat) : (s.setIndex a).keyDown k = s.keyDown k := rfl
@[simp] theorem getReg_setDT (b : Byte) (j : Nibble) : (s.setDT b).getReg j = s.getReg j := rfl
@[simp] theorem byteAt_setDT (b : Byte) (k : Nat) : (s.setDT b).byteAt k = s.byteAt k := rfl
@[simp] theorem keyDown_setDT (b : Byte) (k : Nat) : (s.setDT b).keyDown k = s.keyDown k := rfl
@[simp] theorem getReg_setST (b : Byte) (j : Nibble) : (s.setST b).getReg j = s.getReg j := rfl
@[simp] theorem byteAt_setST (b : Byte) (k : Nat) : (s.setST b).byteAt k = s.byteAt k := rfl
@[simp] theorem keyDown_setST (b : Byte) (k : Nat) : (s.setST b).keyDown k = s.keyDown k := rfl
@[simp] theorem getReg_setStack (es : List Addr) (j : Nibble) : (s.setStack es).getReg j = s.getReg j := rfl
@[simp] theorem byteAt_setStack (es : List Addr) (k : Nat) : (s.setStack es).byteAt k = s.byteAt k := rfl
@[simp] theorem keyDown_setStack (es : List Addr) (k : Nat) : (s.setStack es).keyDown k = s.keyDown k := rfl
@[simp] theorem getReg_setMem (m : Memory) (j : Nibble) : (s.setMem m).getReg j = s.getReg j := rfl
@[simp] theorem keyDown_setMem (m : Memory) (k : Nat) : (s.setMem m).keyDown k = s.keyDown k := rfl
@[simp] theorem getReg_setDisp (d : Display) (j : Nibble) : (s.setDisp d).getReg j = s.getReg j := rfl
@[simp] theorem byteAt_setDisp (d : Display) (k : Nat) : (s.setDisp d).byteAt k = s.byteAt k := rfl
@[simp] theorem keyDown_setDisp (d : Display) (k : Nat) : (s.setDisp d).keyDown k = s.keyDown k := rfl
@[simp] theorem getReg_setFault (r : FaultRecord) (j : Nibble) : (s.setFault r).getReg j = s.getReg j := rfl
@[simp] theorem byteAt_setFault (r : FaultRecord) (k : Nat) : (s.setFault r).byteAt k = s.byteAt k := rfl
@[simp] theorem keyDown_setFault (r : FaultRecord) (k : Nat) : (s.setFault r).keyDown k = s.keyDown k := rfl
@[simp] theorem getReg_addDiag (d : DiagRecord) (j : Nibble) : (s.addDiag d).getReg j = s.getReg j := rfl
@[simp] theorem byteAt_addDiag (d : DiagRecord) (k : Nat) : (s.addDiag d).byteAt k = s.byteAt k := rfl
@[simp] theorem keyDown_addDiag (d : DiagRecord) (k : Nat) : (s.addDiag d).keyDown k = s.keyDown k := rfl
@[simp] theorem getReg_countDraw (j : Nibble) : s.countDraw.getReg j = s.getReg j := rfl
@[simp] theorem byteAt_countDraw (k : Nat) : s.countDraw.byteAt k = s.byteAt k := rfl
@[simp] theorem keyDown_countDraw (k : Nat) : s.countDraw.keyDown k = s.keyDown k := rfl
@[simp] theorem getReg_advance (j : Nibble) : s.advance.getReg j = s.getReg j := rfl
@[simp] theorem byteAt_advance (k : Nat) : s.advance.byteAt k = s.byteAt k := rfl
@[simp] theorem keyDown_advance (k : Nat) : s.advance.keyDown k = s.keyDown k := rfl
@[simp] theorem getReg_rewind (j : Nibble) : s.rewind.getReg j = s.getReg j := rfl
@[simp] theorem byteAt_rewind (k : Nat) : s.rewind.byteAt k = s.byteAt k := rfl
@[simp] theorem keyDown_rewind (k : Nat) : s.rewind.keyDown k = s.keyDown k := rfl
@[simp] theorem getReg_storeBytes (a : Nat) (bs : List Byte) (j : Nibble) : (s.storeBytes a bs).getReg j = s.getReg j := rfl
@[simp] theorem keyDown_storeBytes (a : Nat) (bs : List Byte) (k : Nat) : (s.storeBytes a bs).keyDown k = s.keyDown k := rfl
@[simp] theorem getReg_timerDecrement (j : Nibble) : s.timerDecrement.getReg j = s.getReg j := rfl
@[simp] theorem byteAt_timerDecrement (k : Nat) : s.timerDecrement.byteAt k = s.byteAt k := rfl
@[simp] theorem keyDown_timerDecrement (k : Nat) : s.timerDecrement.keyDown k = s.keyDown k := rfl

end

/-! ### The composite setters: the flag writes, and the conditional skip -/

section
variable (s : State)

@[simp] theorem setFlag_pc (flag : Bool) : (s.setFlag flag).pc = s.pc := rfl
@[simp] theorem setFlag_index (flag : Bool) : (s.setFlag flag).index = s.index := rfl
@[simp] theorem setFlag_dt (flag : Bool) : (s.setFlag flag).dt = s.dt := rfl
@[simp] theorem setFlag_st (flag : Bool) : (s.setFlag flag).st = s.st := rfl
@[simp] theorem setFlag_stack (flag : Bool) : (s.setFlag flag).stack = s.stack := rfl
@[simp] theorem setFlag_mem (flag : Bool) : (s.setFlag flag).mem = s.mem := rfl
@[simp] theorem setFlag_disp (flag : Bool) : (s.setFlag flag).disp = s.disp := rfl
@[simp] theorem setFlag_keys (flag : Bool) : (s.setFlag flag).keys = s.keys := rfl
@[simp] theorem setFlag_fault (flag : Bool) : (s.setFlag flag).fault = s.fault := rfl
@[simp] theorem setFlag_diagLog (flag : Bool) : (s.setFlag flag).diagLog = s.diagLog := rfl
@[simp] theorem setFlag_draws (flag : Bool) : (s.setFlag flag).draws = s.draws := rfl
@[simp] theorem setFlag_config (flag : Bool) : (s.setFlag flag).config = s.config := rfl
@[simp] theorem setRegAndFlag_pc (x : Nibble) (b : Byte) (flag : Bool) :
    (s.setRegAndFlag x b flag).pc = s.pc := rfl
@[simp] theorem setRegAndFlag_index (x : Nibble) (b : Byte) (flag : Bool) :
    (s.setRegAndFlag x b flag).index = s.index := rfl
@[simp] theorem setRegAndFlag_dt (x : Nibble) (b : Byte) (flag : Bool) :
    (s.setRegAndFlag x b flag).dt = s.dt := rfl
@[simp] theorem setRegAndFlag_st (x : Nibble) (b : Byte) (flag : Bool) :
    (s.setRegAndFlag x b flag).st = s.st := rfl
@[simp] theorem setRegAndFlag_stack (x : Nibble) (b : Byte) (flag : Bool) :
    (s.setRegAndFlag x b flag).stack = s.stack := rfl
@[simp] theorem setRegAndFlag_mem (x : Nibble) (b : Byte) (flag : Bool) :
    (s.setRegAndFlag x b flag).mem = s.mem := rfl
@[simp] theorem setRegAndFlag_disp (x : Nibble) (b : Byte) (flag : Bool) :
    (s.setRegAndFlag x b flag).disp = s.disp := rfl
@[simp] theorem setRegAndFlag_keys (x : Nibble) (b : Byte) (flag : Bool) :
    (s.setRegAndFlag x b flag).keys = s.keys := rfl
@[simp] theorem setRegAndFlag_fault (x : Nibble) (b : Byte) (flag : Bool) :
    (s.setRegAndFlag x b flag).fault = s.fault := rfl
@[simp] theorem setRegAndFlag_diagLog (x : Nibble) (b : Byte) (flag : Bool) :
    (s.setRegAndFlag x b flag).diagLog = s.diagLog := rfl
@[simp] theorem setRegAndFlag_draws (x : Nibble) (b : Byte) (flag : Bool) :
    (s.setRegAndFlag x b flag).draws = s.draws := rfl
@[simp] theorem setRegAndFlag_config (x : Nibble) (b : Byte) (flag : Bool) :
    (s.setRegAndFlag x b flag).config = s.config := rfl
@[simp] theorem byteAt_setFlag (flag : Bool) (k : Nat) : (s.setFlag flag).byteAt k = s.byteAt k := rfl
@[simp] theorem keyDown_setFlag (flag : Bool) (k : Nat) : (s.setFlag flag).keyDown k = s.keyDown k := rfl
@[simp] theorem byteAt_setRegAndFlag (x : Nibble) (b : Byte) (flag : Bool) (k : Nat) : (s.setRegAndFlag x b flag).byteAt k = s.byteAt k := rfl
@[simp] theorem keyDown_setRegAndFlag (x : Nibble) (b : Byte) (flag : Bool) (k : Nat) : (s.setRegAndFlag x b flag).keyDown k = s.keyDown k := rfl
@[simp] theorem skipIf_pc (c : Bool) : (s.skipIf c).pc = if c then s.pc + 2 else s.pc := by cases c <;> rfl
@[simp] theorem skipIf_v (c : Bool) : (s.skipIf c).v = s.v := by cases c <;> rfl
@[simp] theorem skipIf_index (c : Bool) : (s.skipIf c).index = s.index := by cases c <;> rfl
@[simp] theorem skipIf_dt (c : Bool) : (s.skipIf c).dt = s.dt := by cases c <;> rfl
@[simp] theorem skipIf_st (c : Bool) : (s.skipIf c).st = s.st := by cases c <;> rfl
@[simp] theorem skipIf_stack (c : Bool) : (s.skipIf c).stack = s.stack := by cases c <;> rfl
@[simp] theorem skipIf_mem (c : Bool) : (s.skipIf c).mem = s.mem := by cases c <;> rfl
@[simp] theorem skipIf_disp (c : Bool) : (s.skipIf c).disp = s.disp := by cases c <;> rfl
@[simp] theorem skipIf_keys (c : Bool) : (s.skipIf c).keys = s.keys := by cases c <;> rfl
@[simp] theorem skipIf_fault (c : Bool) : (s.skipIf c).fault = s.fault := by cases c <;> rfl
@[simp] theorem skipIf_diagLog (c : Bool) : (s.skipIf c).diagLog = s.diagLog := by cases c <;> rfl
@[simp] theorem skipIf_draws (c : Bool) : (s.skipIf c).draws = s.draws := by cases c <;> rfl
@[simp] theorem skipIf_config (c : Bool) : (s.skipIf c).config = s.config := by cases c <;> rfl
@[simp] theorem getReg_skipIf (c : Bool) (j : Nibble) : (s.skipIf c).getReg j = s.getReg j := by cases c <;> rfl
@[simp] theorem byteAt_skipIf (c : Bool) (k : Nat) : (s.skipIf c).byteAt k = s.byteAt k := by cases c <;> rfl
@[simp] theorem keyDown_skipIf (c : Bool) (k : Nat) : (s.skipIf c).keyDown k = s.keyDown k := by cases c <;> rfl

end

end Sys2Proof.Machine
end

