-- ==== Sys2Proof/Laws/Memory.lean ====
section
/-! SUPPORT. Memory: a read after a write, that every memory operation keeps the canonical form, and that reset's memory
has it. -/

namespace Sys2Proof.Machine

open Sys2Proof

/-- Below every cell's address nothing is listed, so the byte reads as its reset value. -/
theorem Memory.read_of_below (c : Config) (m : Memory) (a : Nat) (below : ∀ p ∈ m, a < p.1) :
    Memory.read c m a = Memory.resetByte c a := by
  induction m with
  | nil => rfl
  | cons p rest ih =>
    have hp := below p (by simp)
    rw [Memory.read, if_neg (by omega)]
    exact ih fun q hq => below q (by simp [hq])

theorem Memory.wf_iff (c : Config) (m : Memory) :
    Memory.wf c m = true ↔
      m.Pairwise (fun p q => p.1 < q.1) ∧ ∀ p ∈ m, p.1 < memSize ∧ p.2 ≠ Memory.resetByte c p.1 := by
  simp [Memory.wf]

@[simp] theorem Memory.wf_nil (c : Config) : Memory.wf c [] = true := by
  simp [Memory.wf]

theorem Memory.wf_tail {c : Config} {p : Host.Cell} {m : Memory} (h : Memory.wf c (p :: m) = true) :
    Memory.wf c m = true := by
  rw [Memory.wf_iff] at *
  exact ⟨h.1.of_cons, fun q hq => h.2 q (by simp [hq])⟩

/-- Every cell a write leaves was there before, or is the written one. -/
theorem Memory.mem_write {c : Config} {m : Memory} {a : Nat} {b : Byte} {p : Host.Cell}
    (h : p ∈ Memory.write c m a b) : p ∈ m ∨ (p = (a, b) ∧ b ≠ Memory.resetByte c a) := by
  induction m with
  | nil =>
    simp only [Memory.write] at h
    split at h <;> simp_all
  | cons q rest ih =>
    obtain ⟨k, b'⟩ := q
    simp only [Memory.write] at h
    split_ifs at h <;> simp only [List.mem_cons] at h ⊢
    · exact .inl (.inr h)
    · rcases h with h | h
      · exact .inr ⟨h, by assumption⟩
      · exact .inl (.inr h)
    · exact .inl h
    · rcases h with h | h
      · exact .inr ⟨h, by assumption⟩
      · exact .inl h
    · rcases h with h | h
      · exact .inl (.inl h)
      · rcases ih h with h | h
        · exact .inl (.inr h)
        · exact .inr h

/-- A write inside the address space keeps the canonical form. -/
theorem Memory.write_wf {c : Config} {m : Memory} {a : Nat} (b : Byte) (h : Memory.wf c m = true) (ha : a < memSize) :
    Memory.wf c (Memory.write c m a b) = true := by
  induction m with
  | nil =>
    simp only [Memory.write]
    split
    · simp
    · rename_i hb
      rw [Memory.wf_iff]
      exact ⟨by simp, by simpa using ⟨ha, hb⟩⟩
  | cons q rest ih =>
    have htail := Memory.wf_tail h
    have hrest := ih htail
    obtain ⟨k, b'⟩ := q
    rw [Memory.wf_iff] at h
    obtain ⟨hp, hm⟩ := h
    rw [List.pairwise_cons] at hp
    simp only [Memory.write]
    split_ifs with hk hb hlt hb
    · exact htail
    · subst hk
      rw [Memory.wf_iff]
      refine ⟨List.pairwise_cons.mpr ⟨hp.1, hp.2⟩, ?_⟩
      intro p hpm
      rcases List.mem_cons.mp hpm with rfl | hpm
      · exact ⟨ha, hb⟩
      · exact hm p (by simp [hpm])
    · rw [Memory.wf_iff]
      exact ⟨List.pairwise_cons.mpr hp, hm⟩
    · rw [Memory.wf_iff]
      refine ⟨List.pairwise_cons.mpr ⟨?_, List.pairwise_cons.mpr hp⟩, ?_⟩
      · intro p hpm
        rcases List.mem_cons.mp hpm with rfl | hpm
        · exact hlt
        · exact Nat.lt_trans hlt (hp.1 p hpm)
      · intro p hpm
        rcases List.mem_cons.mp hpm with rfl | hpm
        · exact ⟨ha, hb⟩
        · exact hm p hpm
    · rw [Memory.wf_iff] at hrest ⊢
      refine ⟨List.pairwise_cons.mpr ⟨?_, hrest.1⟩, ?_⟩
      · intro p hpm
        rcases Memory.mem_write hpm with hpm | ⟨rfl, -⟩
        · exact hp.1 p hpm
        · dsimp only; omega
      · intro p hpm
        rcases List.mem_cons.mp hpm with rfl | hpm
        · exact hm _ (by simp)
        · exact hrest.2 p hpm

/-- A read after a write: the written byte at its address, every other byte as before. -/
theorem Memory.read_write {c : Config} {m : Memory} (h : Memory.wf c m = true) (a : Nat) (b : Byte) (k : Nat) :
    Memory.read c (Memory.write c m a b) k = if k = a then b else Memory.read c m k := by
  induction m with
  | nil =>
    simp only [Memory.write]
    split_ifs with hb hk hk <;> simp_all [Memory.read]
  | cons q rest ih =>
    have hrest := ih (Memory.wf_tail h)
    obtain ⟨j, b'⟩ := q
    rw [Memory.wf_iff, List.pairwise_cons] at h
    have below : ∀ x, x ≤ j → Memory.read c rest x = Memory.resetByte c x := fun x hx =>
      Memory.read_of_below c rest x fun p hp => Nat.lt_of_le_of_lt hx (h.1.1 p hp)
    rw [Memory.write]
    by_cases hj : a = j
    · subst hj
      by_cases hb : b = Memory.resetByte c a
      · rw [if_pos rfl, if_pos hb, Memory.read]
        by_cases hk : k = a
        · subst hk; rw [if_pos rfl, below _ (by omega), hb]
        · rw [if_neg hk, if_neg hk]
      · rw [if_pos rfl, if_neg hb, Memory.read, Memory.read]
        by_cases hk : k = a
        · rw [if_pos hk, if_pos hk]
        · rw [if_neg hk, if_neg hk, if_neg hk]
    · rw [if_neg hj]
      by_cases hlt : a < j
      · rw [if_pos hlt]
        by_cases hb : b = Memory.resetByte c a
        · rw [if_pos hb]
          by_cases hk : k = a
          · subst hk; rw [if_pos rfl, Memory.read, if_neg hj, below _ (by omega), hb]
          · rw [if_neg hk]
        · rw [if_neg hb, Memory.read]
      · rw [if_neg hlt, Memory.read, Memory.read, hrest]
        by_cases hk : k = j
        · rw [if_pos hk, if_pos hk, if_neg (by omega)]
        · rw [if_neg hk, if_neg hk]

/-- Writing bytes inside the address space keeps the canonical form. -/
theorem Memory.writeBytes_wf {c : Config} (bs : List Byte) {m : Memory} {a : Nat} (h : Memory.wf c m = true)
    (ha : a + bs.length ≤ memSize) : Memory.wf c (Memory.writeBytes c m a bs) = true := by
  induction bs generalizing m a with
  | nil => exact h
  | cons b bs ih =>
    rw [List.length_cons] at ha
    exact ih (Memory.write_wf b h (by omega)) (by omega)

/-- A read after writing bytes: the written ones in their range, every other byte as before. -/
theorem Memory.read_writeBytes {c : Config} (bs : List Byte) {m : Memory} {a : Nat} (h : Memory.wf c m = true)
    (ha : a + bs.length ≤ memSize) (k : Nat) :
    Memory.read c (Memory.writeBytes c m a bs) k =
      if a ≤ k ∧ k < a + bs.length then bs[k - a]?.getD 0 else Memory.read c m k := by
  induction bs generalizing m a with
  | nil => rw [if_neg (by simp only [List.length_nil]; omega)]; rfl
  | cons b bs ih =>
    simp only [List.length_cons] at ha ⊢
    rw [Memory.writeBytes, ih (Memory.write_wf b h (by omega)) (by omega), Memory.read_write h]
    by_cases hk : k = a
    · subst hk
      rw [if_neg (by omega), if_pos rfl, if_pos (by omega)]
      simp
    · by_cases hr : a ≤ k ∧ k < a + (bs.length + 1)
      · rw [if_pos (by omega), if_pos hr, show k - a = (k - (a + 1)) + 1 by omega]
        simp
      · rw [if_neg (by omega), if_neg hk, if_neg hr]

/-- Reset's memory is canonical. -/
theorem Memory.reset_wf : Memory.wf State.reset.config State.reset.mem = true :=
  Memory.wf_nil _

end Sys2Proof.Machine
end

