-- ==== Sys2Proof/Laws/Ops.lean ====
section
/-! SUPPORT. For each shared operation, what it can do, said once. -/

namespace Sys2Proof.Machine

open Sys2Proof

/-! ### Registers and flags -/

/-- A register read after a register write. -/
@[simp] theorem getReg_setReg (s : State) (x : Nibble) (b : Byte) (j : Nibble) :
    (s.setReg x b).getReg j = if j = x then b else s.getReg j := by
  simp only [State.getReg, setReg_v, Vector.getElem_set]
  by_cases h : j = x
  · simp [h]
  · rw [if_neg h, if_neg]
    exact fun he => h (BitVec.eq_of_toNat_eq he.symm)

/-- A register read after the result and the flag: the flag is what `VF` holds (10 R24). -/
@[simp] theorem getReg_setRegAndFlag (s : State) (x : Nibble) (b : Byte) (flag : Bool) (j : Nibble) :
    (s.setRegAndFlag x b flag).getReg j =
      if j = flagReg then flagByte flag else if j = x then b else s.getReg j := by
  simp [State.setRegAndFlag, State.setFlag]

/-- Register `j` after a block load: the loaded byte up to `x`, its old value above (43 R175). -/
theorem getReg_setRegs_regsLoaded (s : State) (x j : Nibble) :
    (s.setRegs (s.regsLoaded x)).getReg j =
      if j.toNat ≤ x.toNat then s.byteAt (s.index.toNat + j.toNat) else s.getReg j := by
  simp [State.getReg, State.regsLoaded]

/-! ### Stores -/

/-- A byte after a store inside memory: the stored ones in their range, every other byte as before. -/
theorem byteAt_storeBytes (s : State) (a : Nat) (bs : List Byte) (canonical : Memory.wf s.config s.mem = true)
    (fits : a + bs.length ≤ memSize) (k : Nat) :
    (s.storeBytes a bs).byteAt k = if a ≤ k ∧ k < a + bs.length then bs[k - a]?.getD 0 else s.byteAt k :=
  Memory.read_writeBytes bs canonical fits k

/-- A store inside memory keeps the canonical form. -/
theorem storeBytes_wf (s : State) (a : Nat) (bs : List Byte) (canonical : Memory.wf s.config s.mem = true)
    (fits : a + bs.length ≤ memSize) :
    Memory.wf (s.storeBytes a bs).config (s.storeBytes a bs).mem = true :=
  Memory.writeBytes_wf bs canonical fits

@[simp] theorem length_regsUpTo (s : State) (x : Nibble) : (s.regsUpTo x).length = x.toNat + 1 := by
  have := x.isLt
  simp [State.regsUpTo]
  omega

/-- The `k`-th byte a block store moves is `V[k]` (43 R174). -/
theorem getElem_regsUpTo (s : State) (x j : Nibble) (h : j.toNat ≤ x.toNat) :
    (s.regsUpTo x)[j.toNat]? = some (s.getReg j) := by
  have hj := j.isLt
  simp only [State.regsUpTo, State.getReg]
  rw [List.getElem?_take_of_lt (by omega), Vector.getElem?_toList, Vector.getElem?_eq_getElem (by omega)]

@[simp] theorem length_bcdDigits (b : Byte) : (bcdDigits b).length = 3 := rfl

/-! ### Faults -/

/-- Taking a fault answers a next state that differs in the latch alone. -/
theorem raise_eq_next (r : FaultRecord) (s t : State) : raise r s = .next t ↔ t = s.setFault r := by
  simp [raise, eq_comm]

theorem spanFault_eq_none (s : State) (len : Nat) :
    s.spanFault len = none ↔ len = 0 ∨ s.index.toNat + len ≤ memSize := by
  have : memSize = 4096 := rfl
  simp only [State.spanFault, ite_eq_right_iff, reduceCtorEq, imp_false]
  omega

theorem spanFault_eq_some (s : State) (len : Nat) (r : FaultRecord) :
    s.spanFault len = some r ↔
      (1 ≤ len ∧ memSize < s.index.toNat + len) ∧
        r = .outOfBoundsMemoryAccess .execute s.instrAddr (s.index.toNat + len - 1) := by
  have : memSize = 4096 := rfl
  simp only [State.spanFault]
  split_ifs with h
  · simp only [Option.some.injEq, eq_comm (b := r), iff_and_self]
    omega
  · simp only [false_iff, not_and]
    omega

/-- An indexed access either takes its one fault or runs. -/
theorem guardSpan_cases (len : Nat) (s : State) (operation : Result) :
    ((len = 0 ∨ s.index.toNat + len ≤ memSize) ∧ guardSpan len s operation = operation) ∨
      ((1 ≤ len ∧ memSize < s.index.toNat + len) ∧
        guardSpan len s operation =
          .next (s.setFault (.outOfBoundsMemoryAccess .execute s.instrAddr (s.index.toNat + len - 1)))) := by
  cases h : s.spanFault len with
  | none => exact .inl ⟨(spanFault_eq_none s len).mp h, by simp [guardSpan, h]⟩
  | some r =>
    obtain ⟨hb, rfl⟩ := (spanFault_eq_some s len r).mp h
    exact .inr ⟨hb, by simp [guardSpan, h, raise]⟩

/-! ### Stack, program counter, fetch -/

theorem push_cases (s : State) (a : Addr) :
    (s.config.stackDepth ≤ s.sp ∧ s.push a = .error (.stackOverflow s.instrAddr)) ∨
      (s.sp < s.config.stackDepth ∧ s.push a = .ok (s.setStack (a :: s.stack))) := by
  unfold State.push
  split
  · exact .inl ⟨by assumption, rfl⟩
  · exact .inr ⟨by omega, rfl⟩

theorem pop_cases (s : State) :
    (s.stack = [] ∧ s.pop = .error (.stackUnderflow s.instrAddr)) ∨
      ∃ a rest, s.stack = a :: rest ∧ s.pop = .ok (a, s.setStack rest) := by
  unfold State.pop
  split
  · exact .inl ⟨by assumption, rfl⟩
  · exact .inr ⟨_, _, by assumption, rfl⟩

theorem skipIf_eq (s : State) (c : Bool) : s.skipIf c = s.setPc (if c then s.pc + 2 else s.pc) := by
  cases c <;> rfl

/-- The three ends of a fetch (40 R103, R104). -/
theorem fetch_cases (s : State) :
    (memSize ≤ s.pc.toNat + 1 ∧ s.fetch = .error (.outOfBoundsMemoryAccess .fetch s.pc (s.pc.toNat + 1))) ∨
      (s.pc.toNat + 1 < memSize ∧ s.pc.toNat % 2 = 1 ∧ s.fetch = .error (.misalignedFetch s.pc)) ∨
      (s.pc.toNat + 1 < memSize ∧ s.pc.toNat % 2 = 0 ∧ s.fetch = .ok (s.wordAt s.pc.toNat)) := by
  unfold State.fetch
  split_ifs with h h'
  · exact .inl ⟨h, rfl⟩
  · exact .inr (.inl ⟨by omega, h', rfl⟩)
  · exact .inr (.inr ⟨by omega, by omega, rfl⟩)

/-- Everything a tick can do. -/
theorem step_cases (s : State) :
    (∃ r, s.fault = some r ∧ step s = .fault (.sessionOver r)) ∨
      (s.fault = none ∧
        ((∃ r, s.fetch = .error r ∧ step s = .next (s.setFault r)) ∨
          (∃ w i, s.fetch = .ok w ∧ decodeWord w = .ok i ∧ step s = exec i s.advance) ∨
          ∃ w u, s.fetch = .ok w ∧ decodeWord w = .error u ∧ step s = execUnknown w u s.advance)) := by
  unfold step
  split
  · exact .inl ⟨_, by assumption, rfl⟩
  · refine .inr ⟨by assumption, ?_⟩
    split
    · exact .inl ⟨_, by assumption, rfl⟩
    · split
      · exact .inr (.inl ⟨_, _, by assumption, by assumption, rfl⟩)
      · exact .inr (.inr ⟨_, _, by assumption, by assumption, rfl⟩)

/-- The least pressed key: pressed, and no smaller one is (45 R212). -/
theorem leastKey_eq_some (s : State) (k : Nat) :
    s.leastKey = some k ↔ k < 16 ∧ s.keyDown k = true ∧ ∀ j < k, s.keyDown j = false := by
  simp only [State.leastKey, List.find?_range_eq_some, List.mem_range, Bool.not_eq_true']
  exact ⟨fun h => ⟨h.2.1, h.1, h.2.2⟩, fun h => ⟨h.2.1, h.1, h.2.2⟩⟩

theorem leastKey_eq_none (s : State) : s.leastKey = none ↔ ∀ k < 16, s.keyDown k = false := by
  simp [State.leastKey]

end Sys2Proof.Machine
end

