-- ==== Sys2Proof/Laws/DisplayLaws.lean ====
section
/-! SUPPORT. The display controller: the composite write, and a drawn row and sprite said cell by cell. -/

namespace Sys2Proof.Machine

open Sys2Proof

@[simp] theorem cell_cleared (i : Nat) : Display.cell Display.cleared i = false := by
  by_cases h : i < 2048 <;> simp [Display.cell, Display.cleared, h]

/-- A cell after a composite write (44 R190). -/
theorem cell_composite (d : Display) (i j : Nat) (bit : Bool) (hi : i < 2048) :
    Display.cell (Display.composite d i bit).1 j =
      (Display.cell d j ^^ (decide (j = i) && bit)) := by
  by_cases h : j = i
  · subst h
    simp [Display.composite, Display.cell, hi]
  · simp [Display.composite, Display.cell, Vector.getElem?_setIfInBounds_ne (Ne.symm h), h]

/-- The first `m` pixels of a row on screen row `cy`: the cells (44 R192). -/
theorem cell_drawPixels (x0 cy : Nat) (row : Byte) (p : Display × Bool) (m : Nat) (hcy : cy ≤ 31)
    (cx cy' : Nat) (hcx : cx < 64) :
    Display.cell ((List.range m).foldl (drawPixel x0 cy row) p).1 (cx + cy' * 64) =
      (Display.cell p.1 (cx + cy' * 64) ^^
        (decide (cy' = cy ∧ x0 ≤ cx ∧ cx < x0 + m) && row.getLsbD (7 - (cx - x0)))) := by
  induction m with
  | zero =>
    have : ¬ (cy' = cy ∧ x0 ≤ cx ∧ cx < x0 + 0) := by omega
    rw [decide_eq_false this, Bool.false_and, Bool.xor_false, List.range_zero, List.foldl_nil]
  | succ m ih =>
    rw [List.range_succ, List.foldl_append]
    simp only [List.foldl_cons, List.foldl_nil]
    generalize (List.range m).foldl (drawPixel x0 cy row) p = q at *
    unfold drawPixel
    split_ifs with h
    · simp only
      rw [cell_composite _ _ _ _ (by omega), ih]
      by_cases he : cx + cy' * 64 = x0 + m + cy * 64
      · have hr : cy' = cy ∧ cx = x0 + m := by omega
        obtain ⟨rfl, rfl⟩ := hr
        simp
      · have : (cy' = cy ∧ x0 ≤ cx ∧ cx < x0 + m) ↔ (cy' = cy ∧ x0 ≤ cx ∧ cx < x0 + (m + 1)) := by
          constructor <;> rintro ⟨h1, h2, h3⟩ <;> refine ⟨h1, h2, ?_⟩ <;> subst h1 <;> omega
        simp [he, this]
    · rw [ih]
      have : (cy' = cy ∧ x0 ≤ cx ∧ cx < x0 + m) ↔ (cy' = cy ∧ x0 ≤ cx ∧ cx < x0 + (m + 1)) := by omega
      simp [this]

/-- The first `m` pixels of a row on screen row `cy`: the collision flag (44 R192, R196). -/
theorem hit_drawPixels (x0 cy : Nat) (row : Byte) (p : Display × Bool) (m : Nat) (hcy : cy ≤ 31) :
    ((List.range m).foldl (drawPixel x0 cy row) p).2 = true ↔
      p.2 = true ∨ ∃ c < m, x0 + c ≤ 63 ∧ Display.cell p.1 (x0 + c + cy * 64) = true ∧ row.getLsbD (7 - c) = true := by
  induction m with
  | zero => simp
  | succ m ih =>
    have cell := cell_drawPixels x0 cy row p m hcy (x0 + m) cy
    rw [List.range_succ, List.foldl_append]
    simp only [List.foldl_cons, List.foldl_nil]
    generalize (List.range m).foldl (drawPixel x0 cy row) p = q at *
    unfold drawPixel
    split_ifs with h
    · have hm := cell (by omega)
      have hno : ¬ (cy = cy ∧ x0 ≤ x0 + m ∧ x0 + m < x0 + m) := by omega
      rw [decide_eq_false hno, Bool.false_and, Bool.xor_false] at hm
      simp only [Display.composite, Bool.or_eq_true, Bool.and_eq_true, ih, hm, or_assoc]
      refine or_congr_right ?_
      constructor
      · rintro (⟨c, hc, hr⟩ | hr)
        · exact ⟨c, by omega, hr⟩
        · exact ⟨m, by omega, h, hr⟩
      · rintro ⟨c, hc, hx, hr⟩
        rcases Nat.lt_succ_iff_lt_or_eq.mp hc with hc | rfl
        · exact .inl ⟨c, hc, hx, hr⟩
        · exact .inr hr
    · rw [ih]
      refine or_congr_right ?_
      constructor
      · rintro ⟨c, hc, hr⟩
        exact ⟨c, by omega, hr⟩
      · rintro ⟨c, hc, hx, hr⟩
        exact ⟨c, by omega, hx, hr⟩

/-- A drawn row, cell by cell: nothing of a row past the bottom edge (44 R193). -/
theorem cell_drawRow (x0 cy : Nat) (row : Byte) (p : Display × Bool) (cx cy' : Nat) (hcx : cx < 64) (hcy' : cy' < 32) :
    Display.cell (drawRow x0 cy row p).1 (cx + cy' * 64) =
      (Display.cell p.1 (cx + cy' * 64) ^^
        (decide (cy' = cy ∧ x0 ≤ cx ∧ cx < x0 + 8) && row.getLsbD (7 - (cx - x0)))) := by
  unfold drawRow
  split_ifs with h
  · exact cell_drawPixels x0 cy row p 8 h cx cy' hcx
  · have : ¬ (cy' = cy ∧ x0 ≤ cx ∧ cx < x0 + 8) := by omega
    simp [this]

/-- A drawn row's collisions. -/
theorem hit_drawRow (x0 cy : Nat) (row : Byte) (p : Display × Bool) :
    (drawRow x0 cy row p).2 = true ↔
      p.2 = true ∨ (cy ≤ 31 ∧ ∃ c < 8, x0 + c ≤ 63 ∧ Display.cell p.1 (x0 + c + cy * 64) = true ∧
        row.getLsbD (7 - c) = true) := by
  unfold drawRow
  split_ifs with h
  · rw [hit_drawPixels x0 cy row p 8 h]; simp [h]
  · simp [h]

/-- A drawn sprite, cell by cell (44 R192 to R195). -/
theorem cell_drawSprite (x0 y0 n : Nat) (row : Nat → Byte) (d : Display) (cx cy : Nat) (hcx : cx < 64)
    (hcy : cy < 32) :
    Display.cell (drawSprite x0 y0 n row d).1 (cx + cy * 64) =
      (Display.cell d (cx + cy * 64) ^^ spriteBit x0 y0 n row cx cy) := by
  unfold drawSprite
  induction n with
  | zero =>
    have : ¬ (x0 ≤ cx ∧ cx < x0 + 8 ∧ y0 ≤ cy ∧ cy < y0 + 0) := by omega
    rw [spriteBit, decide_eq_false this, Bool.false_and, Bool.xor_false, List.range_zero, List.foldl_nil]
  | succ n ih =>
    rw [List.range_succ, List.foldl_append]
    simp only [List.foldl_cons, List.foldl_nil]
    rw [cell_drawRow _ _ _ _ _ _ hcx hcy, ih]
    unfold spriteBit
    by_cases he : cy = y0 + n
    · subst he
      simp
    · have h1 : (x0 ≤ cx ∧ cx < x0 + 8 ∧ y0 ≤ cy ∧ cy < y0 + (n + 1)) ↔
          (x0 ≤ cx ∧ cx < x0 + 8 ∧ y0 ≤ cy ∧ cy < y0 + n) := by omega
      simp [he, h1]

/-- A drawn sprite's collision flag: some cell on the screen was ON under a 1 of the sprite (44 R196). -/
theorem hit_drawSprite (x0 y0 n : Nat) (row : Nat → Byte) (d : Display) :
    (drawSprite x0 y0 n row d).2 = true ↔
      ∃ cx < 64, ∃ cy < 32, Display.cell d (cx + cy * 64) = true ∧ spriteBit x0 y0 n row cx cy = true := by
  induction n with
  | zero =>
    have : ∀ cx cy, ¬ (x0 ≤ cx ∧ cx < x0 + 8 ∧ y0 ≤ cy ∧ cy < y0 + 0) := fun cx cy => by omega
    simp only [spriteBit, decide_eq_false (this _ _)]
    simp [drawSprite]
  | succ n ih =>
    have cells := cell_drawSprite x0 y0 n row d
    unfold drawSprite at *
    rw [List.range_succ, List.foldl_append]
    simp only [List.foldl_cons, List.foldl_nil]
    rw [hit_drawRow, ih]
    constructor
    · rintro (⟨cx, hcx, cy, hcy, hon, hbit⟩ | ⟨hcy, c, hc, hx, hon, hbit⟩)
      · refine ⟨cx, hcx, cy, hcy, hon, ?_⟩
        simp only [spriteBit, Bool.and_eq_true, decide_eq_true_eq] at hbit ⊢
        exact ⟨by omega, hbit.2⟩
      · rw [cells (x0 + c) (y0 + n) (by omega) (by omega)] at hon
        have : spriteBit x0 y0 n row (x0 + c) (y0 + n) = false := by simp [spriteBit]
        rw [this, Bool.xor_false] at hon
        refine ⟨x0 + c, by omega, y0 + n, by omega, hon, ?_⟩
        simp only [spriteBit, Bool.and_eq_true, decide_eq_true_eq]
        refine ⟨by omega, ?_⟩
        rw [show y0 + n - y0 = n by omega, show x0 + c - x0 = c by omega]
        exact hbit
    · rintro ⟨cx, hcx, cy, hcy, hon, hbit⟩
      simp only [spriteBit, Bool.and_eq_true, decide_eq_true_eq] at hbit
      by_cases he : cy = y0 + n
      · subst he
        have hno : spriteBit x0 y0 n row cx (y0 + n) = false := by simp [spriteBit]
        refine .inr ⟨by omega, cx - x0, by omega, by omega, ?_, ?_⟩
        · rw [show x0 + (cx - x0) = cx by omega, cells cx (y0 + n) hcx hcy, hno, Bool.xor_false]
          exact hon
        · have := hbit.2
          rwa [show y0 + n - y0 = n by omega] at this
      · refine .inl ⟨cx, hcx, cy, hcy, hon, ?_⟩
        simp only [spriteBit, Bool.and_eq_true, decide_eq_true_eq]
        exact ⟨by omega, hbit.2⟩

end Sys2Proof.Machine
end

