-- ==== Sys2Proof/Laws/Encoding.lean ====
section
/-! SUPPORT. Joined bits and the slices that take them apart again: the fields of a word built from fields, and a word built
from its own fields. -/

namespace Sys2Proof

@[simp] theorem toNat_joinNibbles (a b : Nibble) : (joinNibbles a b).toNat = a.toNat * 16 + b.toNat := by
  rw [joinNibbles, BitVec.toNat_cast, BitVec.toNat_append, ← Nat.shiftLeft_add_eq_or_of_lt b.isLt, Nat.shiftLeft_eq]

@[simp] theorem toNat_joinNibbleByte (a : Nibble) (b : Byte) :
    (joinNibbleByte a b).toNat = a.toNat * 256 + b.toNat := by
  rw [joinNibbleByte, BitVec.toNat_cast, BitVec.toNat_append, ← Nat.shiftLeft_add_eq_or_of_lt b.isLt, Nat.shiftLeft_eq]

@[simp] theorem toNat_joinBytes (a b : Byte) : (joinBytes a b).toNat = a.toNat * 256 + b.toNat := by
  rw [joinBytes, BitVec.toNat_cast, BitVec.toNat_append, ← Nat.shiftLeft_add_eq_or_of_lt b.isLt, Nat.shiftLeft_eq]

@[simp] theorem toNat_joinNibbleImm (a : Nibble) (b : Imm12) :
    (joinNibbleImm a b).toNat = a.toNat * 4096 + b.toNat := by
  rw [joinNibbleImm, BitVec.toNat_cast, BitVec.toNat_append, ← Nat.shiftLeft_add_eq_or_of_lt b.isLt, Nat.shiftLeft_eq]

/-- A slice by division and remainder. -/
theorem toNat_slice {n : Nat} (lo len : Nat) (w : BitVec n) :
    (w.extractLsb' lo len).toNat = w.toNat / 2 ^ lo % 2 ^ len := by
  rw [BitVec.extractLsb'_toNat, Nat.shiftRight_eq_div_pow]

/-- The fields of `op nnn`. -/
@[simp] theorem ofWord_wordA (op : Nibble) (nnn : Imm12) :
    (Fields.ofWord (wordA op nnn)).op = op ∧ (Fields.ofWord (wordA op nnn)).nnn = nnn := by
  have ho := op.isLt
  have hn := nnn.isLt
  constructor <;> apply BitVec.eq_of_toNat_eq <;> simp only [Fields.ofWord, wordA, toNat_slice, toNat_joinNibbleImm] <;>
    omega

/-- The fields of `op x nn`. -/
@[simp] theorem ofWord_wordXI (op x : Nibble) (nn : Byte) :
    (Fields.ofWord (wordXI op x nn)).op = op ∧ (Fields.ofWord (wordXI op x nn)).x = x ∧
      (Fields.ofWord (wordXI op x nn)).nn = nn := by
  have ho := op.isLt
  have hx := x.isLt
  have hn := nn.isLt
  refine ⟨?_, ?_, ?_⟩ <;> apply BitVec.eq_of_toNat_eq <;>
    simp only [Fields.ofWord, wordXI, toNat_slice, toNat_joinNibbleImm, toNat_joinNibbleByte] <;> omega

/-- The fields of `op x y n`. -/
@[simp] theorem ofWord_wordXYN (op x y n : Nibble) :
    (Fields.ofWord (wordXYN op x y n)).op = op ∧ (Fields.ofWord (wordXYN op x y n)).x = x ∧
      (Fields.ofWord (wordXYN op x y n)).y = y ∧ (Fields.ofWord (wordXYN op x y n)).n = n := by
  have ho := op.isLt
  have hx := x.isLt
  have hy := y.isLt
  have hn := n.isLt
  refine ⟨?_, ?_, ?_, ?_⟩ <;> apply BitVec.eq_of_toNat_eq <;>
    simp only [Fields.ofWord, wordXYN, toNat_slice, toNat_joinNibbleImm, toNat_joinNibbleByte, toNat_joinNibbles] <;>
    omega

/-- A word is the join of its own fields. -/
theorem wordXYN_ofWord (w : Word) :
    wordXYN (Fields.ofWord w).op (Fields.ofWord w).x (Fields.ofWord w).y (Fields.ofWord w).n = w := by
  have hw := w.isLt
  apply BitVec.eq_of_toNat_eq
  simp only [Fields.ofWord, wordXYN, toNat_slice, toNat_joinNibbleImm, toNat_joinNibbleByte, toNat_joinNibbles]
  omega

/-- The same in the form `op x nn`. -/
theorem wordXI_ofWord (w : Word) : wordXI (Fields.ofWord w).op (Fields.ofWord w).x (Fields.ofWord w).nn = w := by
  have hw := w.isLt
  apply BitVec.eq_of_toNat_eq
  simp only [Fields.ofWord, wordXI, toNat_slice, toNat_joinNibbleImm, toNat_joinNibbleByte]
  omega

/-- The same in the form `op nnn`. -/
theorem wordA_ofWord (w : Word) : wordA (Fields.ofWord w).op (Fields.ofWord w).nnn = w := by
  have hw := w.isLt
  apply BitVec.eq_of_toNat_eq
  simp only [Fields.ofWord, wordA, toNat_slice, toNat_joinNibbleImm]
  omega

/-- A word's two bytes, joined again. -/
@[simp] theorem wordOfBytes_bytes (w : Word) : wordOfBytes (highByte w) (lowByte w) = w := by
  have hw := w.isLt
  apply BitVec.eq_of_toNat_eq
  simp only [wordOfBytes, highByte, lowByte, toNat_slice, toNat_joinBytes]
  omega

end Sys2Proof
end

