-- ==== Sys2Proof/Laws/PerInstr.lean ====
section
/-! SUPPORT. One statement per instruction, about its encoding: its word carries the opcode map's `match` under its `mask`
(30 R80), its ignored bits are 0 and lie outside the mask (30 R78). -/

namespace Sys2Proof.Laws

open Sys2Proof

theorem joinNibbles_and (a b c d : Nibble) :
    joinNibbles a b &&& joinNibbles c d = joinNibbles (a &&& c) (b &&& d) :=
  BitVec.and_append

theorem joinNibbleByte_and (a c : Nibble) (b d : Byte) :
    joinNibbleByte a b &&& joinNibbleByte c d = joinNibbleByte (a &&& c) (b &&& d) :=
  BitVec.and_append

theorem joinNibbleImm_and (a c : Nibble) (b d : Imm12) :
    joinNibbleImm a b &&& joinNibbleImm c d = joinNibbleImm (a &&& c) (b &&& d) :=
  BitVec.and_append

theorem wordA_and (op : Nibble) (nnn : Imm12) (m : Nibble) (k : Imm12) :
    wordA op nnn &&& wordA m k = wordA (op &&& m) (nnn &&& k) :=
  joinNibbleImm_and ..

theorem wordXI_and (op x : Nibble) (nn : Byte) (m k : Nibble) (kk : Byte) :
    wordXI op x nn &&& wordXI m k kk = wordXI (op &&& m) (x &&& k) (nn &&& kk) := by
  simp only [wordXI, joinNibbleImm_and, joinNibbleByte_and]

theorem wordXYN_and (op x y n m k l j : Nibble) :
    wordXYN op x y n &&& wordXYN m k l j = wordXYN (op &&& m) (x &&& k) (y &&& l) (n &&& j) := by
  simp only [wordXYN, joinNibbleImm_and, joinNibbleByte_and, joinNibbles_and]

theorem nibble_and_ones (x : Nibble) : x &&& 0xF = x := by
  have : (0xF : Nibble) = BitVec.allOnes 4 := rfl
  rw [this, BitVec.and_allOnes]

namespace Encoding

/-- The instruction's word carries its row of the opcode map. -/
def Statement (i : Instr) : Prop :=
  encode i &&& i.mask = i.matchBits ∧ encode i &&& i.ignoredBits = 0 ∧ i.mask &&& i.ignoredBits = 0

theorem ofA (i : Instr) (op : Nibble) (nnn : Imm12) (he : encode i = wordA op nnn)
    (hm : i.mask = wordA 0xF 0) (hb : i.matchBits = wordA op 0) (hi : i.ignoredBits = 0) : Statement i := by
  rw [Statement, he, hm, hb, hi, wordA_and, nibble_and_ones]
  simp

theorem ofXI (i : Instr) (op x : Nibble) (nn k : Byte) (he : encode i = wordXI op x nn)
    (hm : i.mask = wordXI 0xF 0 k) (hb : i.matchBits = wordXI op 0 (nn &&& k)) (hi : i.ignoredBits = 0) :
    Statement i := by
  rw [Statement, he, hm, hb, hi, wordXI_and, nibble_and_ones]
  simp

theorem ofXYN (i : Instr) (op x y n j d e : Nibble) (he : encode i = wordXYN op x y n)
    (hm : i.mask = wordXYN 0xF 0 0 j) (hb : i.matchBits = wordXYN op 0 0 (n &&& j))
    (hi : i.ignoredBits = wordXYN 0 0 d e) (hy : y &&& d = 0) (hn : n &&& e = 0) (hj : j &&& e = 0) :
    Statement i := by
  rw [Statement, he, hm, hb, hi, wordXYN_and, wordXYN_and, wordXYN_and, nibble_and_ones, hy, hn, hj]
  refine ⟨?_, ?_, ?_⟩
  · simp
  · simp [wordXYN]; rfl
  · simp [wordXYN]; rfl

theorem cls : Statement .cls := by unfold Statement; decide
theorem ret : Statement .ret := by unfold Statement; decide
theorem jp (nnn : Imm12) : Statement (.jp nnn) := ofA _ 0x1 nnn rfl rfl rfl rfl
theorem call (nnn : Imm12) : Statement (.call nnn) := ofA _ 0x2 nnn rfl rfl rfl rfl
theorem ldI (nnn : Imm12) : Statement (.ldI nnn) := ofA _ 0xa nnn rfl rfl rfl rfl
theorem jpV0 (nnn : Imm12) : Statement (.jpV0 nnn) := ofA _ 0xb nnn rfl rfl rfl rfl
theorem seImm (x : Nibble) (nn : Byte) : Statement (.seImm x nn) := ofXI _ 0x3 x nn 0 rfl rfl (by simp; rfl) rfl
theorem sneImm (x : Nibble) (nn : Byte) : Statement (.sneImm x nn) := ofXI _ 0x4 x nn 0 rfl rfl (by simp; rfl) rfl
theorem ldImm (x : Nibble) (nn : Byte) : Statement (.ldImm x nn) := ofXI _ 0x6 x nn 0 rfl rfl (by simp; rfl) rfl
theorem addImm (x : Nibble) (nn : Byte) : Statement (.addImm x nn) := ofXI _ 0x7 x nn 0 rfl rfl (by simp; rfl) rfl
theorem rnd (x : Nibble) (nn : Byte) : Statement (.rnd x nn) := ofXI _ 0xc x nn 0 rfl rfl (by simp; rfl) rfl
theorem skp (x : Nibble) : Statement (.skp x) := ofXI _ 0xe x 0x9e 0xFF rfl rfl rfl rfl
theorem sknp (x : Nibble) : Statement (.sknp x) := ofXI _ 0xe x 0xa1 0xFF rfl rfl rfl rfl
theorem ldVxDT (x : Nibble) : Statement (.ldVxDT x) := ofXI _ 0xf x 0x7 0xFF rfl rfl rfl rfl
theorem ldVxK (x : Nibble) : Statement (.ldVxK x) := ofXI _ 0xf x 0xa 0xFF rfl rfl rfl rfl
theorem ldDTVx (x : Nibble) : Statement (.ldDTVx x) := ofXI _ 0xf x 0x15 0xFF rfl rfl rfl rfl
theorem ldSTVx (x : Nibble) : Statement (.ldSTVx x) := ofXI _ 0xf x 0x18 0xFF rfl rfl rfl rfl
theorem addI (x : Nibble) : Statement (.addI x) := ofXI _ 0xf x 0x1e 0xFF rfl rfl rfl rfl
theorem ldF (x : Nibble) : Statement (.ldF x) := ofXI _ 0xf x 0x29 0xFF rfl rfl rfl rfl
theorem ldB (x : Nibble) : Statement (.ldB x) := ofXI _ 0xf x 0x33 0xFF rfl rfl rfl rfl
theorem storeRegs (x : Nibble) : Statement (.storeRegs x) := ofXI _ 0xf x 0x55 0xFF rfl rfl rfl rfl
theorem loadRegs (x : Nibble) : Statement (.loadRegs x) := ofXI _ 0xf x 0x65 0xFF rfl rfl rfl rfl
theorem ldReg (x y : Nibble) : Statement (.ldReg x y) := ofXYN _ 0x8 x y 0x0 0xF 0 0 rfl rfl rfl rfl (by simp) (by decide) (by decide)
theorem orReg (x y : Nibble) : Statement (.orReg x y) := ofXYN _ 0x8 x y 0x1 0xF 0 0 rfl rfl rfl rfl (by simp) (by decide) (by decide)
theorem andReg (x y : Nibble) : Statement (.andReg x y) := ofXYN _ 0x8 x y 0x2 0xF 0 0 rfl rfl rfl rfl (by simp) (by decide) (by decide)
theorem xorReg (x y : Nibble) : Statement (.xorReg x y) := ofXYN _ 0x8 x y 0x3 0xF 0 0 rfl rfl rfl rfl (by simp) (by decide) (by decide)
theorem addReg (x y : Nibble) : Statement (.addReg x y) := ofXYN _ 0x8 x y 0x4 0xF 0 0 rfl rfl rfl rfl (by simp) (by decide) (by decide)
theorem sub (x y : Nibble) : Statement (.sub x y) := ofXYN _ 0x8 x y 0x5 0xF 0 0 rfl rfl rfl rfl (by simp) (by decide) (by decide)
theorem subn (x y : Nibble) : Statement (.subn x y) := ofXYN _ 0x8 x y 0x7 0xF 0 0 rfl rfl rfl rfl (by simp) (by decide) (by decide)
theorem shr (x : Nibble) : Statement (.shr x) := ofXYN _ 0x8 x 0 0x6 0xF 0xF 0 rfl rfl rfl rfl (by decide) (by decide) (by decide)
theorem shl (x : Nibble) : Statement (.shl x) := ofXYN _ 0x8 x 0 0xe 0xF 0xF 0 rfl rfl rfl rfl (by decide) (by decide) (by decide)
theorem seReg (x y : Nibble) : Statement (.seReg x y) := ofXYN _ 0x5 x y 0 0 0 0xF rfl rfl rfl rfl (by simp) (by decide) (by decide)
theorem sneReg (x y : Nibble) : Statement (.sneReg x y) := ofXYN _ 0x9 x y 0 0 0 0xF rfl rfl rfl rfl (by simp) (by decide) (by decide)
theorem drw (x y n : Nibble) : Statement (.drw x y n) := ofXYN _ 0xD x y n 0 0 0 rfl rfl (by simp; rfl) rfl (by simp) (by simp) (by decide)

end Encoding

end Sys2Proof.Laws
end

