-- ==== Sys2Proof/Laws/Step.lean ====
section
/-! SUPPORT. What an instruction can do to the state, said once over all of them: the parts no instruction touches, and the
few ways the others may change.  Each invariant of the tick follows from this and from `step_cases`. -/

namespace Sys2Proof.Machine

open Sys2Proof

/-- The answer to a taken fault, or everything a completed instruction can have done to the parts an invariant speaks
of. -/
inductive ExecOutcome (s t : State) : Prop where
  | faulted (r : FaultRecord) (latched : t = s.setFault r) (address : r.instrPc = s.instrAddr)
  | completed
      (config : t.config = s.config) (keys : t.keys = s.keys) (diagLog : t.diagLog = s.diagLog) (fault : t.fault = s.fault)
      (mem : t.mem = s.mem ∨
        ∃ bs, s.index.toNat + bs.length ≤ memSize ∧ t.mem = Memory.writeBytes s.config s.mem s.index.toNat bs)
      (stack : t.stack = s.stack ∨ (t.stack = s.pc :: s.stack ∧ s.sp < s.config.stackDepth) ∨
        ∃ a, s.stack = a :: t.stack)
      (pc : t.pc = s.pc ∨ t.pc = s.pc + 2 ∨ t.pc = s.pc - 2 ∨ t.pc ∈ s.stack ∨ t.pc.toNat ≤ 0x10FE)

/-- A completed instruction that touches none of the parts in `ExecOutcome`. -/
theorem ExecOutcome.ofKept {s t : State} (config : t.config = s.config) (keys : t.keys = s.keys)
    (diagLog : t.diagLog = s.diagLog) (fault : t.fault = s.fault) (mem : t.mem = s.mem) (stack : t.stack = s.stack)
    (pc : t.pc = s.pc ∨ t.pc = s.pc + 2 ∨ t.pc = s.pc - 2 ∨ t.pc ∈ s.stack ∨ t.pc.toNat ≤ 0x10FE) :
    ExecOutcome s t :=
  .completed config keys diagLog fault (.inl mem) (.inl stack) pc

/-- An indexed operation: its fault, or what it does when it runs. -/
theorem ExecOutcome.ofGuardSpan {s t u : State} {len : Nat} (h : guardSpan len s (.next u) = .next t)
    (runs : len = 0 ∨ s.index.toNat + len ≤ memSize → ExecOutcome s u) : ExecOutcome s t := by
  rcases guardSpan_cases len s (.next u) with ⟨fits, hg⟩ | ⟨-, hg⟩ <;> rw [hg] at h <;> cases h
  · exact runs fits
  · exact .faulted _ rfl rfl

/-- A key skip: its fault, or the skip. -/
theorem ExecOutcome.ofSkipOnKey {s t : State} {x : Nibble} {wanted : Bool} (h : skipOnKey x wanted s = .next t) :
    ExecOutcome s t := by
  unfold skipOnKey at h
  split at h <;> cases h
  · exact .faulted _ rfl rfl
  · exact .ofKept (by simp) (by simp) (by simp) (by simp) (by simp) (by simp) (by rw [skipIf_pc]; split <;> simp)

theorem exec_outcome (i : Instr) (s t : State) (h : exec i s = .next t) : ExecOutcome s t := by
  cases i with
  | cls => cases h; exact .ofKept rfl rfl rfl rfl rfl rfl (.inl rfl)
  | ret =>
    simp only [exec, execRet] at h
    rcases pop_cases s with ⟨-, hp⟩ | ⟨a, rest, hs, hp⟩ <;> rw [hp] at h <;> cases h
    · exact .faulted _ rfl rfl
    · exact .completed rfl rfl rfl rfl (.inl rfl) (.inr (.inr ⟨a, hs⟩)) (by simp [hs])
  | jp nnn =>
    cases h
    refine .ofKept rfl rfl rfl rfl rfl rfl (.inr (.inr (.inr (.inr ?_))))
    simp [zextAddr]
    omega
  | call nnn =>
    simp only [exec, execCall] at h
    rcases push_cases s s.pc with ⟨-, hp⟩ | ⟨hs, hp⟩ <;> rw [hp] at h <;> cases h
    · exact .faulted _ rfl rfl
    · refine .completed rfl rfl rfl rfl (.inl rfl) (.inr (.inl ⟨rfl, hs⟩)) (.inr (.inr (.inr (.inr ?_))))
      simp [zextAddr]
      omega
  | seImm x nn | sneImm x nn | seReg x nn | sneReg x nn =>
    cases h
    exact .ofKept (by simp) (by simp) (by simp) (by simp) (by simp) (by simp) (by rw [skipIf_pc]; split <;> simp)
  | ldImm x nn | addImm x nn | ldReg x nn | orReg x nn | andReg x nn | xorReg x nn | addReg x nn | sub x nn | subn x nn
  | rnd x nn => cases h; exact .ofKept rfl rfl rfl rfl rfl rfl (.inl rfl)
  | shr x | shl x | ldVxDT x | ldDTVx x | ldSTVx x | addI x | ldF x | ldI x =>
    cases h; exact .ofKept rfl rfl rfl rfl rfl rfl (.inl rfl)
  | jpV0 nnn =>
    cases h
    refine .ofKept rfl rfl rfl rfl rfl rfl (.inr (.inr (.inr (.inr ?_))))
    simp [zextAddr, zextReg]
    omega
  | drw x y n => exact .ofGuardSpan h fun _ => .ofKept rfl rfl rfl rfl rfl rfl (.inl rfl)
  | skp x | sknp x => exact .ofSkipOnKey h
  | ldVxK x =>
    simp only [exec, execLdVxK] at h
    split at h <;> cases h
    · exact .ofKept rfl rfl rfl rfl rfl rfl (.inl rfl)
    · exact .ofKept rfl rfl rfl rfl rfl rfl (.inr (.inr (.inl rfl)))
  | ldB x =>
    exact .ofGuardSpan h fun fits =>
      .completed rfl rfl rfl rfl (.inr ⟨_, by simpa using fits, rfl⟩) (.inl rfl) (.inl rfl)
  | storeRegs x =>
    exact .ofGuardSpan h fun fits =>
      .completed rfl rfl rfl rfl (.inr ⟨s.regsUpTo x, by simpa using fits, rfl⟩) (.inl rfl) (.inl rfl)
  | loadRegs x =>
    have h' : guardSpan (x.toNat + 1) s (.next (s.setRegs (s.regsLoaded x))) = .next t := h
    exact .ofGuardSpan h' fun _ =>
      .ofKept (by simp) (by simp) (by simp) (by simp) (by simp) (by simp) (.inl (by simp))

end Sys2Proof.Machine
end

