-- ==== Sys2Proof/Machine/Text.lean ====
section
/-! DEFINITION. The two textual forms the source describes (30 R93, R94).  00 R6 counts them as surrounding software and
not as hardware: no instruction and no step uses this file. -/

namespace Sys2Proof.Machine

open Sys2Proof

/-- The upper-case hexadecimal digits in order of their values. -/
def hexDigits : List Char :=
  ['0', '1', '2', '3', '4', '5', '6', '7', '8', '9', 'A', 'B', 'C', 'D', 'E', 'F']

/-- The lower-case letters among the digits, of values 10 to 15. -/
def lowerHexLetters : List Char :=
  ['a', 'b', 'c', 'd', 'e', 'f']

/-- One upper-case hexadecimal digit. -/
def hexChar (d : Nibble) : Char :=
  hexDigits[d.toNat]?.getD '0'

/-- The debug rendering's characters: `op=X x=X y=X n=X nn=XX nnn=XXX` (30 R93). -/
def debugChars (f : Fields) : List Char :=
  ['o', 'p', '=', hexChar f.op, ' ', 'x', '=', hexChar f.x, ' ', 'y', '=', hexChar f.y, ' ', 'n', '=', hexChar f.n,
   ' ', 'n', 'n', '=', hexChar (f.nn.extractLsb' 4 4), hexChar (f.nn.extractLsb' 0 4),
   ' ', 'n', 'n', 'n', '=', hexChar (f.nnn.extractLsb' 8 4), hexChar (f.nnn.extractLsb' 4 4),
   hexChar (f.nnn.extractLsb' 0 4)]

/-- The debug rendering of a word's fields (30 R93). -/
def debugString (w : Word) : String :=
  String.ofList (debugChars (Fields.ofWord w))

/-- The value of a hexadecimal digit; whether a lower-case one counts is a free value (30 R94; log entry 15). -/
def hexValue (c : Char) : Option Nibble :=
  match hexDigits.idxOf? c with
  | some k => some (BitVec.ofNat 4 k)
  | none =>
    match lowerHexLetters.idxOf? c with
    | some k => if Config.lowerCaseHexAccepted then some (BitVec.ofNat 4 (k + 10)) else none
    | none => none

/-- The textual decoder: exactly four hexadecimal digits, the first the most significant nibble; anything else is
rejected (30 R94). -/
def decodeChars : List Char → Option Word
  | [a, b, c, d] =>
    match hexValue a, hexValue b, hexValue c, hexValue d with
    | some p, some q, some r, some s => some (wordXYN p q r s)
    | _, _, _, _ => none
  | _ => none

/-- The textual decoder on a string; the word is then decoded as any other (30 R94). -/
def decodeText (text : String) : Option Word :=
  decodeChars text.toList

end Sys2Proof.Machine
end

