-- ==== Sys2Proof/Tests/Slice0.lean ====
section
/-! SUPPORT. The model's own tests: decode words written out from the encodings of 30 R80, the well-formedness checks, and
one tick or one event on small states.  Expected values are those of spec/95_test_vectors.md (tables T-DEC, T-CTL,
T-ALU, T-IDX, T-DSP, T-KEY, T-RST) and of the worked examples in the rules. -/

namespace Sys2Proof.Tests

open Sys2Proof Sys2Proof.Machine

/-! ### Helpers -/

/-- The parameters of the test states: the defaults, with FONT_BASE 0x050 (one of the two bases of 95). -/
def params : Config where
  stackDepth := 16
  fontBase := 0x050
  fontImage := Config.defaultFontImage

/-- Reset state under those parameters. -/
def base : State := { State.reset with config := params }

/-- Reset state with some registers preset. -/
def withRegs (rs : List (Nibble × Byte)) (s : State := base) : State :=
  rs.foldl (fun s p => s.setReg p.1 p.2) s

/-- A state with some bytes in memory. -/
def withBytes (a : Nat) (bs : List Byte) (s : State) : State :=
  s.storeBytes a bs

/-- A state with some keys down. -/
def withKeys (ks : List Nat) (s : State := base) : State :=
  { s with keys := ks.foldl (fun v k => v.setIfInBounds k true) s.keys }

/-- A state with some cells ON. -/
def withCells (cs : List Nat) (s : State) : State :=
  { s with disp := cs.foldl (fun d c => d.setIfInBounds c true) s.disp }

/-- The answer is a next state that satisfies `p`. -/
def answers (r : Result) (p : State → Bool) : Bool :=
  match r with
  | .next t => p t
  | .fault _ => false
  | .refused _ => false

/-- One tick with the word at `pc` satisfies `p`. -/
def ticks (s : State) (w : Nat) (p : State → Bool) : Bool :=
  answers (step (s.withFetchWord 16 w)) p

/-! ### Well-formedness: an ill-formed term for each check -/

theorem test_fields_wrong_nn : Fields.wellFormed ⟨8, 1, 2, 4, 0x25, 0x124⟩ = false := by decide
theorem test_fields_wrong_nnn : Fields.wellFormed ⟨8, 1, 2, 4, 0x24, 0x324⟩ = false := by decide
theorem test_fields_of_word : Fields.wellFormed (Fields.ofWord 0x8124) = true := by decide
theorem test_params_no_stack : Config.wellFormed { params with stackDepth := 0 } = false := by decide
theorem test_params_legal : Config.wellFormed params = true := by decide
theorem test_memory_unsorted : Memory.wf params [(0x301, 1), (0x300, 1)] = false := by decide
theorem test_memory_reset_value_listed : Memory.wf params [(0x300, 0)] = false := by decide
theorem test_memory_outside : Memory.wf params [(0x1000, 1)] = false := by decide

/-! ### Decode (30 R71, R78, R80, R85; T-DEC) -/

theorem test_fields_1 : Fields.ofWord 0x2390 = ⟨2, 3, 9, 0, 0x90, 0x390⟩ := by decide
theorem test_fields_2 : Fields.ofWord 0x00EE = ⟨0, 0, 0xE, 0xE, 0xEE, 0x0EE⟩ := by decide
theorem test_fields_3 : Fields.ofWord 0x8AB4 = ⟨8, 0xA, 0xB, 4, 0xB4, 0xAB4⟩ := by decide

theorem test_decode_control :
    decodeWord 0b0000000011101110 = .ok .ret ∧ decodeWord 0b0001001000000110 = .ok (.jp 0x206) ∧
    decodeWord 0b0010001110010000 = .ok (.call 0x390) ∧ decodeWord 0b0011000100100011 = .ok (.seImm 1 0x23) ∧
    decodeWord 0b0100001100010001 = .ok (.sneImm 3 0x11) ∧ decodeWord 0b0101000100100000 = .ok (.seReg 1 2) ∧
    decodeWord 0b1001000100100000 = .ok (.sneReg 1 2) ∧ decodeWord 0b1011001100000000 = .ok (.jpV0 0x300) := by
  refine ⟨?_, ?_, ?_, ?_, ?_, ?_, ?_, ?_⟩ <;> rfl

theorem test_decode_alu :
    decodeWord 0b0110101000101011 = .ok (.ldImm 0xA 0x2B) ∧ decodeWord 0b0111000100100000 = .ok (.addImm 1 0x20) ∧
    decodeWord 0b1000000100100000 = .ok (.ldReg 1 2) ∧ decodeWord 0b1000000100100001 = .ok (.orReg 1 2) ∧
    decodeWord 0b1000000100100010 = .ok (.andReg 1 2) ∧ decodeWord 0b1000000100100011 = .ok (.xorReg 1 2) ∧
    decodeWord 0b1000000100100100 = .ok (.addReg 1 2) ∧ decodeWord 0b1000000100100101 = .ok (.sub 1 2) ∧
    decodeWord 0b1000000100000110 = .ok (.shr 1) ∧ decodeWord 0b1000000100100111 = .ok (.subn 1 2) ∧
    decodeWord 0b1000000100001110 = .ok (.shl 1) ∧ decodeWord 0b1100001100001111 = .ok (.rnd 3 0x0F) := by
  refine ⟨?_, ?_, ?_, ?_, ?_, ?_, ?_, ?_, ?_, ?_, ?_, ?_⟩ <;> rfl

theorem test_decode_index :
    decodeWord 0b1010001100000000 = .ok (.ldI 0x300) ∧ decodeWord 0b1111001000011110 = .ok (.addI 2) ∧
    decodeWord 0b1111010000101001 = .ok (.ldF 4) ∧ decodeWord 0b1111000000110011 = .ok (.ldB 0) ∧
    decodeWord 0b1111001001010101 = .ok (.storeRegs 2) ∧ decodeWord 0b1111001001100101 = .ok (.loadRegs 2) := by
  refine ⟨?_, ?_, ?_, ?_, ?_, ?_⟩ <;> rfl

theorem test_decode_display :
    decodeWord 0b0000000011100000 = .ok .cls ∧ decodeWord 0b1101000000010010 = .ok (.drw 0 1 2) := by
  refine ⟨?_, ?_⟩ <;> rfl

theorem test_decode_keypad_timers :
    decodeWord 0b1110000110011110 = .ok (.skp 1) ∧ decodeWord 0b1110000110100001 = .ok (.sknp 1) ∧
    decodeWord 0b1111010100000111 = .ok (.ldVxDT 5) ∧ decodeWord 0b1111000100001010 = .ok (.ldVxK 1) ∧
    decodeWord 0b1111010100010101 = .ok (.ldDTVx 5) ∧ decodeWord 0b1111010100011000 = .ok (.ldSTVx 5) := by
  refine ⟨?_, ?_, ?_, ?_, ?_, ?_⟩ <;> rfl

theorem test_decode_ignored_nibbles :
    decodeWord 0x0AE0 = .ok .cls ∧ decodeWord 0x0FEE = .ok .ret ∧ decodeWord 0x5121 = .ok (.seReg 1 2) ∧
    decodeWord 0x912F = .ok (.sneReg 1 2) ∧ decodeWord 0x83F6 = .ok (.shr 3) ∧ decodeWord 0x812E = .ok (.shl 1) := by
  refine ⟨?_, ?_, ?_, ?_, ?_, ?_⟩ <;> rfl

theorem test_decode_unknown :
    decodeWord 0x0000 = .error ⟨0x0, 0x00⟩ ∧ decodeWord 0x00E1 = .error ⟨0x0, 0xE1⟩ ∧
    decodeWord 0x801F = .error ⟨0x8, 0xF⟩ ∧ decodeWord 0x8128 = .error ⟨0x8, 0x8⟩ ∧
    decodeWord 0xE19F = .error ⟨0xE, 0x9F⟩ ∧ decodeWord 0xF075 = .error ⟨0xF, 0x75⟩ ∧
    decodeWord 0xFFFF = .error ⟨0xF, 0xFF⟩ := by
  refine ⟨?_, ?_, ?_, ?_, ?_, ?_, ?_⟩ <;> rfl

theorem test_decode_bytes : decodeBytes [0x23, 0x90, 0x12] = .ok (.call 0x390, [0x12]) := by rfl
theorem test_decode_bytes_short : decodeBytes [0x23] = .error (.truncated 1) := by rfl
theorem test_decode_table_word : decodeTableWord 16 0x2390 = some (.call 0x390) := by decide
theorem test_encode : encode (.addReg 0xA 0xB) = 0x8AB4 ∧ encode .cls = 0x00E0 ∧ encode (.drw 0 1 15) = 0xD01F := by
  decide

/-! ### Control transfer (T-CTL) -/

theorem test_jp : ticks base 0x1206 (fun t => t.pc == 0x206) = true := by decide
theorem test_call : ticks base 0x2390 (fun t => t.pc == 0x390 && t.sp == 1 && t.stack == [0x202]) = true := by decide
theorem test_call_full : ticks { base with stack := List.replicate 16 0x202 } 0x2200
    (fun t => t.pc == 0x202 && t.sp == 16 && t.fault == some (.stackOverflow 0x200)) = true := by decide
theorem test_ret : ticks { base with pc := 0x212, stack := [0x206] } 0x00EE
    (fun t => t.pc == 0x206 && t.sp == 0 && t.fault == none) = true := by decide
theorem test_ret_empty : ticks base 0x00EE
    (fun t => t.pc == 0x202 && t.sp == 0 && t.fault == some (.stackUnderflow 0x200)) = true := by decide
theorem test_se_imm : ticks base 0x3000 (fun t => t.pc == 0x204) = true := by decide
theorem test_se_imm_not : ticks (withRegs [(0, 1)]) 0x3000 (fun t => t.pc == 0x202) = true := by decide
theorem test_sne_imm : ticks (withRegs [(3, 0x10)]) 0x4311 (fun t => t.pc == 0x204) = true := by decide
theorem test_sne_imm_not : ticks (withRegs [(3, 0x11)]) 0x4311 (fun t => t.pc == 0x202) = true := by decide
theorem test_se_reg : ticks (withRegs [(1, 7), (2, 7)]) 0x5121 (fun t => t.pc == 0x204) = true := by decide
theorem test_se_reg_not : ticks (withRegs [(1, 7), (2, 8)]) 0x5120 (fun t => t.pc == 0x202) = true := by decide
theorem test_sne_reg : ticks (withRegs [(1, 7), (2, 8)]) 0x9120 (fun t => t.pc == 0x204) = true := by decide
theorem test_sne_reg_same : ticks (withRegs [(3, 9)]) 0x9330 (fun t => t.pc == 0x202) = true := by decide
theorem test_jp_v0 : ticks (withRegs [(0, 0xFF)]) 0xBFFF (fun t => t.pc == 0x10FE && t.fault == none) = true := by decide
theorem test_jp_v0_register : ticks (withRegs [(0, 4), (3, 9)]) 0xB300 (fun t => t.pc == 0x304) = true := by decide
theorem test_skip_at_top : ticks { base with pc := 0xFFE } 0x3000 (fun t => t.pc == 0x1002) = true := by decide

/-! ### Registers and arithmetic (T-ALU) -/

theorem test_ld_imm : ticks base 0x6A2B (fun t => t.getReg 0xA == 0x2B && t.pc == 0x202) = true := by decide
theorem test_add_imm_saturates : ticks (withRegs [(1, 5)]) 0x71FF (fun t => t.getReg 1 == 0xFF && t.getReg 15 == 0) = true := by
  decide
theorem test_add_imm : ticks (withRegs [(1, 0x10)]) 0x7105 (fun t => t.getReg 1 == 0x15) = true := by decide
theorem test_ld_reg : ticks (withRegs [(2, 0x5A)]) 0x8120 (fun t => t.getReg 1 == 0x5A) = true := by decide
theorem test_or : ticks (withRegs [(1, 0xF0), (2, 0x0F), (15, 7)]) 0x8121
    (fun t => t.getReg 1 == 0xFF && t.getReg 15 == 7) = true := by decide
theorem test_and : ticks (withRegs [(1, 0xF3), (2, 0x3C)]) 0x8122 (fun t => t.getReg 1 == 0x30) = true := by decide
theorem test_xor : ticks (withRegs [(1, 0xFF), (2, 0x0F)]) 0x8123 (fun t => t.getReg 1 == 0xF0) = true := by decide
theorem test_add_reg : ticks (withRegs [(1, 0xEE), (2, 0x11)]) 0x8124
    (fun t => t.getReg 1 == 0xFF && t.getReg 15 == 0) = true := by decide
theorem test_add_reg_flag_wins : ticks (withRegs [(15, 0xF0), (2, 0x20)]) 0x8F24 (fun t => t.getReg 15 == 1) = true := by
  decide
theorem test_sub_wraps : ticks (withRegs [(1, 0x01), (2, 0x11)]) 0x8125
    (fun t => t.getReg 1 == 0xF0 && t.getReg 15 == 0) = true := by decide
theorem test_sub_equal : ticks (withRegs [(1, 0x33), (2, 0x33)]) 0x8125
    (fun t => t.getReg 1 == 0 && t.getReg 15 == 1) = true := by decide
theorem test_subn_wraps : ticks (withRegs [(1, 0x11), (2, 0x01)]) 0x8127
    (fun t => t.getReg 1 == 0xF0 && t.getReg 15 == 0) = true := by decide
theorem test_subn : ticks (withRegs [(1, 0x01), (2, 0x11)]) 0x8127
    (fun t => t.getReg 1 == 0x10 && t.getReg 15 == 1) = true := by decide
theorem test_shr : ticks (withRegs [(1, 5), (2, 0xFF)]) 0x8126
    (fun t => t.getReg 1 == 2 && t.getReg 15 == 1 && t.getReg 2 == 0xFF) = true := by decide
theorem test_shr_flag_wins : ticks (withRegs [(15, 2)]) 0x8F06 (fun t => t.getReg 15 == 0) = true := by decide
theorem test_shl : ticks (withRegs [(1, 0x81)]) 0x810E (fun t => t.getReg 1 == 2 && t.getReg 15 == 1) = true := by decide
theorem test_shl_no_carry : ticks (withRegs [(1, 0x7F), (2, 0xAA)]) 0x812E
    (fun t => t.getReg 1 == 0xFE && t.getReg 15 == 0 && t.getReg 2 == 0xAA) = true := by decide

/-- 0xC300 gives 0 whatever the random byte is. -/
theorem test_rnd_zero : ∃ t, exec (.rnd 3 0) base = .next t ∧ t.getReg 3 = 0 :=
  ⟨_, rfl, by simp⟩

/-- 0xC3FF passes the random byte through, and one byte is consumed. -/
theorem test_rnd_all_ones : ∃ t, exec (.rnd 3 0xFF) base = .next t ∧ t.getReg 3 = Config.randomByte 0 ∧ t.draws = 1 :=
  ⟨_, rfl, by
    have : (0xFF : Byte) = BitVec.allOnes 8 := rfl
    have hb : (Config.randomByte 0 &&& 0xFF) = Config.randomByte 0 := by rw [this, BitVec.and_allOnes]
    simpa [base, State.reset] using hb, rfl⟩

/-! ### Index and memory (T-IDX) -/

theorem test_ld_i : ticks base 0xAFFF (fun t => t.index == 0xFFF) = true := by decide
theorem test_add_i : ticks (withRegs [(2, 1)] { base with index := 0xFFF }) 0xF21E
    (fun t => t.index == 0x1000 && t.getReg 15 == 0) = true := by decide
theorem test_add_i_saturates : ticks (withRegs [(2, 5)] { base with index := 0xFFFE }) 0xF21E
    (fun t => t.index == 0xFFFF) = true := by decide
theorem test_ld_f : ticks (withRegs [(4, 0x1A)]) 0xF429 (fun t => t.index == 0x082) = true := by decide
theorem test_ld_b : ticks (withRegs [(0, 0xFE)] { base with index := 0x300 }) 0xF033
    (fun t => t.byteAt 0x300 == 2 && t.byteAt 0x301 == 5 && t.byteAt 0x302 == 4) = true := by decide
theorem test_ld_b_out : ticks (withRegs [(0, 123)] { base with index := 0xFFE }) 0xF033
    (fun t => t.byteAt 0xFFE == 0 && t.pc == 0x202 &&
      t.fault == some (.outOfBoundsMemoryAccess .execute 0x200 0x1000)) = true := by decide
theorem test_store_regs : ticks (withRegs [(0, 0x11), (1, 0x22), (2, 0x33), (3, 0x44)] { base with index := 0x400 }) 0xF255
    (fun t => t.byteAt 0x400 == 0x11 && t.byteAt 0x401 == 0x22 && t.byteAt 0x402 == 0x33 && t.byteAt 0x403 == 0 &&
      t.index == 0x400) = true := by decide
theorem test_store_regs_out : ticks { base with index := 0xFF1 } 0xFF55
    (fun t => t.fault == some (.outOfBoundsMemoryAccess .execute 0x200 0x1000)) = true := by decide
theorem test_load_regs : ticks (withBytes 0x300 [2, 5, 4, 9] { base with index := 0x300 }) 0xF265
    (fun t => t.getReg 0 == 2 && t.getReg 1 == 5 && t.getReg 2 == 4 && t.getReg 3 == 0 && t.index == 0x300) = true := by
  decide
theorem test_load_regs_out : ticks { base with index := 0xFFF } 0xF165
    (fun t => t.getReg 0 == 0 && t.fault == some (.outOfBoundsMemoryAccess .execute 0x200 0x1000)) = true := by decide

/-! ### Display (T-DSP) -/

theorem test_cls : ticks (withCells [2046, 2047] (withRegs [(15, 1)])) 0x00E0
    (fun t => !Display.cell t.disp 2046 && !Display.cell t.disp 2047 && t.getReg 15 == 1) = true := by decide +kernel
theorem test_drw_clipped : ticks (withBytes 0x300 [0xFF, 0x81] (withRegs [(0, 62), (1, 31)] { base with index := 0x300 })) 0xD012
    (fun t => Display.cell t.disp 2046 && Display.cell t.disp 2047 && !Display.cell t.disp 1984 && !Display.cell t.disp 0 &&
      t.getReg 15 == 0) = true := by decide +kernel
theorem test_drw_collides : ticks (withCells [0] (withBytes 0x300 [0xF0] { base with index := 0x300 })) 0xD011
    (fun t => !Display.cell t.disp 0 && Display.cell t.disp 1 && Display.cell t.disp 3 && !Display.cell t.disp 4 &&
      t.getReg 15 == 1) = true := by decide +kernel

/-! ### Keypad and timers (T-KEY) -/

theorem test_skp : ticks (withKeys [7] (withRegs [(1, 7)])) 0xE19E (fun t => t.pc == 0x204) = true := by decide
theorem test_skp_bad_key : ticks (withRegs [(0, 16)]) 0xE09E
    (fun t => t.pc == 0x202 && t.fault == some (.keyIndexOutOfRange 0x200 16)) = true := by decide
theorem test_sknp : ticks (withKeys [7] (withRegs [(1, 7)])) 0xE1A1 (fun t => t.pc == 0x202) = true := by decide
theorem test_sknp_up : ticks (withRegs [(1, 7)]) 0xE1A1 (fun t => t.pc == 0x204) = true := by decide
theorem test_ld_k_waits : ticks base 0xF10A (fun t => t.pc == 0x200 && t.fault == none && t.getReg 1 == 0) = true := by decide
theorem test_ld_k_least : ticks (withKeys [7, 9]) 0xF10A (fun t => t.pc == 0x202 && t.getReg 1 == 7) = true := by decide
theorem test_ld_vx_dt : ticks { base with dt := 0x3C } 0xF507 (fun t => t.getReg 5 == 0x3C) = true := by decide
theorem test_ld_dt_vx : ticks (withRegs [(5, 0x3C)]) 0xF515 (fun t => t.dt == 0x3C && t.st == 0) = true := by decide
theorem test_ld_st_vx : ticks (withRegs [(5, 0x02)]) 0xF518 (fun t => t.st == 0x02 && t.dt == 0) = true := by decide

/-! ### The tick, faults, reset and host events (T-RST) -/

theorem test_unknown : ticks base 0x801F (fun t => t.pc == 0x202 && t.fault == none &&
    t.diagLog == [.unknownSecondaryOpcode 0x801F 0x200 0x8 0xF]) = true := by decide
theorem test_fetch_misaligned : answers (step { base with pc := 0x201 }) (fun t => t.pc == 0x201 &&
    t.fault == some (.misalignedFetch 0x201)) = true := by decide
theorem test_fetch_out : answers (step { base with pc := 0xFFF }) (fun t => t.pc == 0xFFF &&
    t.fault == some (.outOfBoundsMemoryAccess .fetch 0xFFF 0x1000)) = true := by decide
theorem test_no_tick_after_fault : step { base with fault := some (.misalignedFetch 0x201) } =
    .fault (.sessionOver (.misalignedFetch 0x201)) := by rfl
theorem test_reset_first_word : State.reset.wordAt 0x200 = 0x0000 := by decide
theorem test_reset_call : ticks State.reset 0x2390 (fun t => t.pc == 0x390 && t.stack == [0x202]) = true := by decide
theorem test_font_bytes : (List.range 5).map (fun k => base.byteAt (0x050 + k)) = [0xF0, 0x90, 0x90, 0x90, 0xF0] := by decide

/-- `Reset` with the ROM `12 00`. -/
theorem test_construct : (match State.construct params 0 [0x12, 0x00] with
    | .ok t => t.byteAt 0x200 == 0x12 && t.byteAt 0x201 == 0 && t.byteAt 0x202 == 0 && t.pc == 0x200
    | .error _ => false) = true := by decide

/-- A ROM of 3585 bytes is rejected. -/
theorem test_construct_oversized : State.construct params 0 (List.replicate 3585 0x12) = .error (.oversizedROM 3585) := by
  rw [State.construct, List.length_replicate, if_pos (by decide)]

theorem test_set_key : (match base.setKey 7 true with
    | .ok t => t.keyDown 7 && !t.keyDown 8
    | .error _ => false) = true := by decide
theorem test_set_key_refused : base.setKey 16 true = .error (.keySlot 16) := by rfl
theorem test_timer_decrement : ({ base with dt := 2, st := 0 }).timerDecrement.dt = 1 ∧
    ({ base with dt := 2, st := 0 }).timerDecrement.st = 0 := by decide
theorem test_read_stack_top : readStackTop { base with stack := [0x202] } = .ok 0x202 ∧
    readStackTop base = .error .emptyStack := ⟨rfl, rfl⟩

/-! ### Text (S10) -/

theorem test_debug : debugChars (Fields.ofWord 0x2390) =
    ['o', 'p', '=', '2', ' ', 'x', '=', '3', ' ', 'y', '=', '9', ' ', 'n', '=', '0', ' ', 'n', 'n', '=', '9', '0',
     ' ', 'n', 'n', 'n', '=', '3', '9', '0'] := by decide
theorem test_text : decodeChars ['2', '3', '9', '0'] = some 0x2390 ∧ decodeChars ['2', '3', '9'] = none ∧
    decodeChars ['2', '3', '9', 'G'] = none := by decide

end Sys2Proof.Tests
end

