-- ==== Sys2Proof/Tests/Witnesses0.lean ====
section
/-! SUPPORT. For every statement that has hypotheses, states and operands that meet all of them together, with one theorem
for each clause at a boundary of its range. -/

namespace Sys2Proof.Tests

open Sys2Proof Sys2Proof.Machine

/-- What a Boolean check of an answer says. -/
theorem answers_next {r : Result} {p : State → Bool} (h : answers r p = true) : ∃ t, r = .next t ∧ p t = true := by
  cases r with
  | next t => exact ⟨t, rfl, h⟩
  | fault r => cases h
  | refused r => cases h

/-- The instruction answers a next state with the latch set. -/
def latches (i : Instr) (s : State) : Bool :=
  answers (exec i s) fun t => t.fault.isSome

/-! ### Reset and the host's events -/

theorem witness_construct : ∃ s, State.construct params 0 [0x12, 0x34] = .ok s := ⟨_, rfl⟩

/-- The last ROM byte, the byte after it, the font's first and last byte, the bytes beside it, and the top of memory. -/
theorem witness_reset_memory : (match State.construct params 0 [0x12, 0x34] with
    | .ok t => t.byteAt 0x201 == 0x34 && t.byteAt 0x202 == 0 && t.byteAt 0x04F == 0 && t.byteAt 0x050 == 0xF0 &&
        t.byteAt 0x09F == 0x80 && t.byteAt 0x0A0 == 0 && t.byteAt 0xFFF == 0
    | .error _ => false) = true := by decide

theorem witness_rom_fits : ∃ rom : List Byte, rom.length = 3584 ∧ ∃ s, State.construct params 0 rom = .ok s :=
  ⟨List.replicate 3584 0x12, List.length_replicate, _, by
    rw [State.construct, List.length_replicate, if_neg (by decide)]⟩
theorem witness_rom_too_long : ∃ rom : List Byte, rom.length = 3585 := ⟨List.replicate 3585 0x12, List.length_replicate⟩

theorem witness_key_slots : (15 : Nat) ≤ 15 ∧ (15 : Nat) < 16 := by decide
theorem witness_accessor_ranges : (15 : Nat) < 16 ∧ (0xFFF : Nat) ≤ 0xFFF ∧ (0xFFF : Nat) < 0x1000 ∧ (2047 : Nat) ≤ 2047 ∧
    (2047 : Nat) < 2048 ∧ ({ base with stack := [0x202] } : State).stack = 0x202 :: [] ∧ base.stack = [] := by decide

/-! ### Encoding -/

theorem witness_selected : decodeWord 0x0AE0 = .ok .cls ∧ (0x2390 : Word) &&& 0xF000 = 0x2000 ∧
    (0x6A2B : Word) &&& 0xF000 = 0x6000 := ⟨rfl, by decide, by decide⟩
theorem witness_unknown : decodeWord 0x8128 = .error ⟨0x8, 0x8⟩ ∧ decodeWord 0x0000 = .error ⟨0x0, 0x00⟩ ∧
    decodeWord 0xE19F = .error ⟨0xE, 0x9F⟩ ∧ decodeWord 0xF075 = .error ⟨0xF, 0x75⟩ := ⟨rfl, rfl, rfl, rfl⟩

/-! ### The tick -/

/-- A fetch at the reset address, and at the last fetchable one. -/
theorem witness_fetches : Fetches (base.withFetchWord 16 0x6A2B) 0x6A2B ∧ decodeWord 0x6A2B = .ok (.ldImm 0xA 0x2B) :=
  ⟨by unfold Fetches; decide, rfl⟩
theorem witness_fetches_at_top : Fetches (({ base with pc := 0xFFE } : State).withFetchWord 16 0x6A2B) 0x6A2B := by
  unfold Fetches; decide
theorem witness_fetches_unknown : Fetches base 0x0000 ∧ decodeWord 0x0000 = .error ⟨0x0, 0x00⟩ :=
  ⟨by unfold Fetches; decide, rfl⟩
theorem witness_fetch_word : (base.withFetchWord 16 0x6A2B).fetch = .ok 0x6A2B ∧
    (({ base with pc := 0xFFE } : State).withFetchWord 16 0x6A2B).fetch = .ok 0x6A2B := ⟨rfl, rfl⟩
theorem witness_fetch_out : ({ base with pc := 0xFFF } : State).fault = none ∧
    0xFFF < ({ base with pc := 0xFFF } : State).pc.toNat + 1 := by decide
theorem witness_fetch_odd : ({ base with pc := 0xFFD } : State).fault = none ∧
    ({ base with pc := 0xFFD } : State).pc.toNat + 1 ≤ 0xFFF ∧ ({ base with pc := 0xFFD } : State).pc.toNat % 2 = 1 := by
  decide
theorem witness_faulted : ({ base with fault := some (.misalignedFetch 0x201) } : State).fault =
    some (.misalignedFetch 0x201) := rfl

/-- A tick that takes a fault, at fetch and in the execute stage. -/
theorem witness_fault_at_fetch : ∃ s t, step s = .next t ∧ t.fault.isSome = true :=
  ⟨_, answers_next (r := step { base with pc := 0x201 }) (by decide)⟩
theorem witness_fault_in_execute : ∃ s t, step s = .next t ∧ t.fault.isSome = true :=
  ⟨_, answers_next (r := step (base.withFetchWord 16 0x00EE)) (by decide)⟩

/-- Every instruction that takes a fault takes one somewhere, from an empty latch. -/
theorem witness_exec_faults : base.fault = none ∧
    latches .ret base = true ∧ latches (.call 0) { base with stack := List.replicate 16 0x202 } = true ∧
    latches (.drw 0 1 5) { base with index := 0xFFC } = true ∧ latches (.ldB 0) { base with index := 0xFFE } = true ∧
    latches (.storeRegs 1) { base with index := 0xFFF } = true ∧ latches (.loadRegs 1) { base with index := 0xFFF } = true ∧
    latches (.skp 0) (withRegs [(0, 16)]) = true ∧ latches (.sknp 0) (withRegs [(0, 16)]) = true := by decide

/-- Ticks that change a timer. -/
theorem witness_timer_written : ∃ s t, step s = .next t ∧ (t.dt != s.dt) = true :=
  ⟨_, answers_next (r := step ((withRegs [(5, 0x3C)]).withFetchWord 16 0xF515)) (by decide)⟩
theorem witness_sound_written : ∃ s t, step s = .next t ∧ (t.st != s.st) = true :=
  ⟨_, answers_next (r := step ((withRegs [(5, 0x3C)]).withFetchWord 16 0xF518)) (by decide)⟩

/-- A tick that logs a record. -/
theorem witness_logged : ∃ s t, step s = .next t ∧ (t.diagLog != s.diagLog) = true :=
  ⟨_, answers_next (r := step base) (by decide)⟩

/-- An RND and another instruction that answer. -/
theorem witness_draws : (∃ t, exec (.rnd 3 0x0F) base = .next t) ∧ ∃ t, exec (.ldImm 3 0x0F) base = .next t :=
  ⟨⟨_, rfl⟩, ⟨_, rfl⟩⟩

/-- Instructions that change a register, the stack, a cell, a byte, and `I`. -/
theorem witness_register_changes : ∃ t, exec (.ldImm 3 0x0F) base = .next t ∧ (t.getReg 3 != base.getReg 3) = true :=
  answers_next (by decide)
theorem witness_stack_changes : ∃ t, exec (.call 0x300) base = .next t ∧ (t.stack != base.stack) = true :=
  answers_next (by decide)
theorem witness_cell_changes : ∃ t, exec (.drw 0 1 1) (withBytes 0x300 [0x80] { base with index := 0x300 }) = .next t ∧
    (Display.cell t.disp 0 != Display.cell base.disp 0) = true :=
  answers_next (by decide +kernel)
theorem witness_byte_changes : ∃ t, exec (.ldB 0) (withRegs [(0, 123)] { base with index := 0xFFD }) = .next t ∧
    (t.byteAt 0xFFD != base.byteAt 0xFFD) = true :=
  answers_next (by decide)
theorem witness_index_changes : ∃ t, exec (.ldI 0x300) base = .next t ∧ (t.index != base.index) = true :=
  answers_next (by decide)

theorem witness_placed_word : base.fault = none ∧ base.pc.toNat % 2 = 0 ∧ base.pc.toNat ≤ 0xFFE ∧
    Memory.wf base.config base.mem = true ∧ decodeTableWord 16 0x2390 = some (.call 0x390) := by decide

/-- A block store of two registers whose last byte is the last of memory. -/
theorem witness_store_then_fetch : ∃ x s t, 1 ≤ (x : Nibble).toNat ∧ s.index.toNat + x.toNat ≤ 0xFFF ∧
    Memory.wf s.config s.mem = true ∧ exec (.storeRegs x) s = .next t ∧ (t.byteAt 0xFFF == 0x08) = true := by
  obtain ⟨t, h, ht⟩ := answers_next
    (r := exec (.storeRegs 1) (withRegs [(0, 0x12), (1, 0x08)] { base with index := 0xFFE }))
    (p := fun t => t.byteAt 0xFFF == 0x08) (by decide)
  exact ⟨1, _, t, by decide, by decide, by decide, h, ht⟩

/-! ### Invariants -/

theorem witness_inv : MachineInv base :=
  ⟨by decide, by decide, by decide, (by intro a h; cases h), by decide⟩

/-- A state that meets the invariant with a full stack and `pc` at its largest value. -/
theorem witness_inv_at_bounds : MachineInv { base with stack := List.replicate 16 0x1000, pc := 0x10FE } :=
  ⟨by decide, by decide, by decide,
    fun a h => List.eq_of_mem_replicate h ▸ (by unfold ReturnAddr; decide : ReturnAddr 0x1000), by decide⟩
theorem witness_step_answers : ∃ t, step base = .next t := by
  obtain ⟨t, h, -⟩ := answers_next (r := step base) (p := fun _ => true) (by decide)
  exact ⟨t, h⟩
theorem witness_reachable : ∃ s, Reachable s :=
  ⟨_, .constructed params 0 [0x12, 0x34] _ (by decide) rfl⟩
theorem witness_canonical : Memory.wf params [(0x300, 1), (0xFFF, 2)] = true := by decide
theorem witness_at_rest : AtRest (base.withFetchWord 16 0x1200) := by
  unfold AtRest; decide
theorem witness_at_rest_at_top : AtRest (({ base with pc := 0xFFE } : State).withFetchWord 16 0x1FFE) := by
  unfold AtRest; decide

/-! ### Operations with more than one clause -/

theorem witness_call_room : ({ base with stack := List.replicate 15 0x202 } : State).sp <
    ({ base with stack := List.replicate 15 0x202 } : State).config.stackDepth := by decide
theorem witness_call_full : ({ base with stack := List.replicate 16 0x202 } : State).config.stackDepth ≤
    ({ base with stack := List.replicate 16 0x202 } : State).sp := by decide
theorem witness_call_then_ret : ∃ s t, s.sp < s.config.stackDepth ∧ exec (.call 0x390) s = .next t := by
  obtain ⟨t, h, -⟩ := answers_next (r := exec (.call 0x390) { base with stack := List.replicate 15 0x202 })
    (p := fun _ => true) (by decide)
  exact ⟨_, t, by decide, h⟩
theorem witness_span_bcd : ({ base with index := 0xFFD } : State).index.toNat + 2 ≤ 0xFFF ∧
    0xFFF < ({ base with index := 0xFFE } : State).index.toNat + 2 ∧ Memory.wf base.config base.mem = true := by decide
theorem witness_span_block : Memory.wf base.config base.mem = true ∧
    ({ base with index := 0xFF0 } : State).index.toNat + (15 : Nibble).toNat ≤ 0xFFF ∧
    0xFFF < ({ base with index := 0xFF1 } : State).index.toNat + (15 : Nibble).toNat := by decide
theorem witness_store_then_load : ∃ x s t u, Memory.wf s.config s.mem = true ∧
    s.index.toNat + (x : Nibble).toNat ≤ 0xFFF ∧ exec (.storeRegs x) s = .next t ∧ exec (.loadRegs x) t = .next u := by
  obtain ⟨t, h, ht⟩ := answers_next (r := exec (.storeRegs 15) (withRegs [(15, 9)] { base with index := 0xFF0 }))
    (p := fun t => answers (exec (.loadRegs 15) t) fun _ => true) (by decide)
  obtain ⟨u, h', -⟩ := answers_next ht
  exact ⟨15, _, t, u, by decide, by decide, h, h'⟩
theorem witness_span_draw : (0 : Nibble).toNat = 0 ∧
    ({ base with index := 0xFFC } : State).index.toNat + (4 : Nibble).toNat - 1 ≤ 0xFFF ∧ 1 ≤ (5 : Nibble).toNat ∧
    0xFFF < ({ base with index := 0xFFC } : State).index.toNat + (5 : Nibble).toNat - 1 := by decide

/-- The same sprite twice, onto a cell that is ON; and a sprite of height 0 with `I` outside memory. -/
theorem witness_draw_twice : ∃ s t u, (0 : Nibble) ≠ 0xF ∧ (1 : Nibble) ≠ 0xF ∧
    s.index.toNat + (1 : Nibble).toNat - 1 ≤ 0xFFF ∧ exec (.drw 0 1 1) s = .next t ∧ exec (.drw 0 1 1) t = .next u := by
  obtain ⟨t, h, ht⟩ := answers_next
    (r := exec (.drw 0 1 1) (withCells [0] (withBytes 0x300 [0xF0] { base with index := 0x300 })))
    (p := fun t => answers (exec (.drw 0 1 1) t) fun _ => true) (by decide)
  obtain ⟨u, h', -⟩ := answers_next ht
  exact ⟨_, t, u, by decide, by decide, by decide, h, h'⟩
theorem witness_draw_height_zero : ∃ t, exec (.drw 0 1 0) { base with index := 0xFFFF } = .next t ∧
    (t.fault == none) = true :=
  answers_next (by decide)

theorem witness_key_numbers : ((withRegs [(0, 15)]).getReg 0).toNat ≤ 15 ∧ 15 < ((withRegs [(0, 16)]).getReg 0).toNat := by
  decide
theorem witness_least_key : (15 : Nat) ≤ 15 ∧ (withKeys [15]).keyDown 15 = true ∧
    (∀ j < 15, (withKeys [15]).keyDown j = false) := by decide
theorem witness_no_key : ∀ k ≤ 15, base.keyDown k = false := by decide
theorem witness_key_wait_tick : Fetches (base.withFetchWord 16 0xF10A) 0xF10A ∧ decodeWord 0xF10A = .ok (.ldVxK 1) ∧
    (∀ k ≤ 15, (base.withFetchWord 16 0xF10A).keyDown k = false) :=
  ⟨by unfold Fetches; decide, rfl, by decide⟩

end Sys2Proof.Tests
end

section
/-! PROOFS. The fields of a word against its bits: what each field is as a number, how the fields overlap, and what the
word's two bytes are in terms of them (30 R71). -/

namespace Sys2Proof

/-- Each field of a word, as a number cut out of the word by division and remainder (30 R71). -/
theorem toNat_ofWord (w : Word) :
    (Fields.ofWord w).op.toNat = w.toNat / 4096 ∧ (Fields.ofWord w).x.toNat = w.toNat / 256 % 16 ∧
      (Fields.ofWord w).y.toNat = w.toNat / 16 % 16 ∧ (Fields.ofWord w).n.toNat = w.toNat % 16 ∧
      (Fields.ofWord w).nn.toNat = w.toNat % 256 ∧ (Fields.ofWord w).nnn.toNat = w.toNat % 4096 := by
  have hw := w.isLt
  simp only [Fields.ofWord, toNat_slice]
  omega

theorem nn_ofWord (w : Word) :
    (Fields.ofWord w).nn = joinNibbles (Fields.ofWord w).y (Fields.ofWord w).n := by
  obtain ⟨-, -, hy, hn, hnn, -⟩ := toNat_ofWord w
  apply BitVec.eq_of_toNat_eq
  rw [toNat_joinNibbles, hy, hn, hnn]
  omega

theorem nnn_ofWord (w : Word) :
    (Fields.ofWord w).nnn = joinNibbleByte (Fields.ofWord w).x (Fields.ofWord w).nn := by
  obtain ⟨-, hx, -, -, hnn, hnnn⟩ := toNat_ofWord w
  apply BitVec.eq_of_toNat_eq
  rw [toNat_joinNibbleByte, hx, hnn, hnnn]
  omega

/-- The fields of a word overlap as 30 R71 says they do. -/
@[simp] theorem wellFormed_ofWord (w : Word) : (Fields.ofWord w).wellFormed = true := by
  rw [Fields.wellFormed, ← nn_ofWord, ← nnn_ofWord, beq_self_eq_true, beq_self_eq_true, Bool.and_self]

theorem highByte_eq_joinNibbles (w : Word) :
    highByte w = joinNibbles (Fields.ofWord w).op (Fields.ofWord w).x := by
  obtain ⟨hop, hx, -⟩ := toNat_ofWord w
  have hw := w.isLt
  apply BitVec.eq_of_toNat_eq
  rw [toNat_joinNibbles, hop, hx, highByte, toNat_slice]
  omega

theorem lowByte_eq_nn (w : Word) : lowByte w = (Fields.ofWord w).nn := rfl

/-- Settles O8: the fields' values, then the overlaps, then the word's two bytes. -/
theorem fieldsAreTheBitsOfTheWord : Obligations.FieldsAreTheBitsOfTheWord := by
  intro w
  obtain ⟨hop, hx, hy, hn, hnn, hnnn⟩ := toNat_ofWord w
  exact ⟨wellFormed_ofWord w, hop, hx, hy, hn, hnn, hnnn, highByte_eq_joinNibbles w, lowByte_eq_nn w⟩

end Sys2Proof
end

section
/-! PROOFS. What a tick leaves alone of the timers and the keys (40 R110): the ticks that answer a next state in terms of
the word they fetch, then what an instruction does to the timers, then both together. -/

namespace Sys2Proof.Machine

open Sys2Proof

/-- A fetch that answers a word on an unfaulted core is what `Fetches` states of it. -/
theorem fetches_of_fetch_eq_ok {s : State} {w : Word} (hfault : s.fault = none) (h : s.fetch = .ok w) :
    Fetches s w := by
  have : memSize = 4096 := rfl
  rcases fetch_cases s with ⟨-, hf⟩ | ⟨-, -, hf⟩ | ⟨hpc, heven, hf⟩ <;> rw [hf] at h <;> cases h
  exact ⟨hfault, heven, by omega, rfl⟩

/-- A tick that answers a next state took a fetch fault, executed the fetched instruction, or logged the fetched word as
unknown (40 R103, R107, R108). -/
theorem step_next_cases {s t : State} (h : step s = .next t) :
    (∃ r, s.fetch = .error r ∧ t = s.setFault r) ∨
      (∃ w i, Fetches s w ∧ decodeWord w = .ok i ∧ exec i s.advance = .next t) ∨
      ∃ w u, Fetches s w ∧ decodeWord w = .error u ∧ execUnknown w u s.advance = .next t := by
  rcases step_cases s with ⟨r, -, hs⟩ | ⟨hnone, ⟨r, hf, hs⟩ | ⟨w, i, hf, hd, hs⟩ | ⟨w, u, hf, hd, hs⟩⟩ <;>
    rw [hs] at h
  · cases h
  · cases h
    exact .inl ⟨r, hf, rfl⟩
  · exact .inr (.inl ⟨w, i, fetches_of_fetch_eq_ok hnone hf, hd, h⟩)
  · exact .inr (.inr ⟨w, u, fetches_of_fetch_eq_ok hnone hf, hd, h⟩)

/-- A key skip either takes its one fault or skips on the key's level (45 R210, R211). -/
theorem skipOnKey_cases (x : Nibble) (wanted : Bool) (s : State) :
    (15 < (s.getReg x).toNat ∧
        skipOnKey x wanted s = .next (s.setFault (.keyIndexOutOfRange s.instrAddr (s.getReg x)))) ∨
      ((s.getReg x).toNat ≤ 15 ∧
        skipOnKey x wanted s = .next (s.skipIf (s.keyDown (s.getReg x).toNat == wanted))) := by
  unfold skipOnKey
  split_ifs with hkey
  · exact .inl ⟨hkey, rfl⟩
  · exact .inr ⟨by omega, rfl⟩

/-! ### Keys -/

theorem keyDown_eq_of_keys_eq {s t : State} (h : t.keys = s.keys) (k : Nat) : t.keyDown k = s.keyDown k := by
  rw [State.keyDown, State.keyDown, h]

theorem exec_keys {i : Instr} {s t : State} (h : exec i s = .next t) : t.keys = s.keys := by
  cases exec_outcome i s t h with
  | faulted r latched => rw [latched, setFault_keys]
  | completed _ keys => exact keys

theorem step_keys {s t : State} (h : step s = .next t) : t.keys = s.keys := by
  rcases step_next_cases h with ⟨r, -, rfl⟩ | ⟨w, i, -, -, he⟩ | ⟨w, u, -, -, he⟩
  · exact setFault_keys s r
  · rw [exec_keys he, advance_keys]
  · cases he
    rw [addDiag_keys, advance_keys]

/-! ### Timers -/

/-- `DT` and `ST` are in `t` what they are in `s`. -/
def TimersKept (s t : State) : Prop :=
  t.dt = s.dt ∧ t.st = s.st

/-- An indexed operation that keeps the timers when it runs keeps them when it faults. -/
theorem TimersKept.ofGuardSpan {s t u : State} {len : Nat} (h : guardSpan len s (.next u) = .next t)
    (runs : TimersKept s u) : TimersKept s t := by
  rcases guardSpan_cases len s (.next u) with ⟨-, hg⟩ | ⟨-, hg⟩ <;> rw [hg] at h <;> cases h
  · exact runs
  · exact ⟨rfl, rfl⟩

theorem TimersKept.ofSkipIf (s : State) (c : Bool) : TimersKept s (s.skipIf c) :=
  ⟨skipIf_dt s c, skipIf_st s c⟩

theorem TimersKept.ofSkipOnKey {s t : State} {x : Nibble} {wanted : Bool} (h : skipOnKey x wanted s = .next t) :
    TimersKept s t := by
  rcases skipOnKey_cases x wanted s with ⟨-, hk⟩ | ⟨-, hk⟩ <;> rw [hk] at h <;> cases h
  · exact ⟨rfl, rfl⟩
  · exact .ofSkipIf s _

/-- What an instruction does to the timers: LD DT,Vx and LD ST,Vx write one each (45 R215, R216), the rest keep both. -/
theorem exec_timers {i : Instr} {s t : State} (h : exec i s = .next t) :
    TimersKept s t ∨ (∃ x, i = .ldDTVx x ∧ t = s.setDT (s.getReg x)) ∨
      ∃ x, i = .ldSTVx x ∧ t = s.setST (s.getReg x) := by
  cases i with
  | ldDTVx x => cases h; exact .inr (.inl ⟨x, rfl, rfl⟩)
  | ldSTVx x => cases h; exact .inr (.inr ⟨x, rfl, rfl⟩)
  | ret =>
    simp only [exec, execRet] at h
    rcases pop_cases s with ⟨-, hp⟩ | ⟨a, rest, -, hp⟩ <;> rw [hp] at h <;> cases h <;> exact .inl ⟨rfl, rfl⟩
  | call nnn =>
    simp only [exec, execCall] at h
    rcases push_cases s s.pc with ⟨-, hp⟩ | ⟨-, hp⟩ <;> rw [hp] at h <;> cases h <;> exact .inl ⟨rfl, rfl⟩
  | seImm x b | sneImm x b | seReg x b | sneReg x b => cases h; exact .inl (.ofSkipIf s _)
  | skp x | sknp x => exact .inl (.ofSkipOnKey h)
  | ldVxK x =>
    simp only [exec, execLdVxK] at h
    split at h <;> cases h <;> exact .inl ⟨rfl, rfl⟩
  | drw x y n => exact .inl (.ofGuardSpan h ⟨rfl, rfl⟩)
  | ldB x | storeRegs x => exact .inl (.ofGuardSpan h ⟨rfl, rfl⟩)
  | loadRegs x =>
    have hspan : guardSpan (x.toNat + 1) s (.next (s.setRegs (s.regsLoaded x))) = .next t := h
    exact .inl (.ofGuardSpan hspan ⟨setRegs_dt s _, setRegs_st s _⟩)
  | cls => cases h; exact .inl ⟨rfl, rfl⟩
  | jp x | jpV0 x | ldI x | shr x | shl x | ldVxDT x | addI x | ldF x => cases h; exact .inl ⟨rfl, rfl⟩
  | ldImm x b | addImm x b | ldReg x b | orReg x b | andReg x b | xorReg x b | addReg x b | sub x b | subn x b
  | rnd x b => cases h; exact .inl ⟨rfl, rfl⟩

/-- What a tick does to the timers, in terms of the word it fetches. -/
theorem step_timers {s t : State} (h : step s = .next t) :
    TimersKept s t ∨ (∃ w x, Fetches s w ∧ decodeWord w = .ok (.ldDTVx x) ∧ t.st = s.st) ∨
      ∃ w x, Fetches s w ∧ decodeWord w = .ok (.ldSTVx x) ∧ t.dt = s.dt := by
  rcases step_next_cases h with ⟨r, -, rfl⟩ | ⟨w, i, hw, hd, he⟩ | ⟨w, u, -, -, he⟩
  · exact .inl ⟨rfl, rfl⟩
  · rcases exec_timers he with hkept | ⟨x, rfl, rfl⟩ | ⟨x, rfl, rfl⟩
    · exact .inl hkept
    · exact .inr (.inl ⟨w, x, hw, hd, rfl⟩)
    · exact .inr (.inr ⟨w, x, hw, hd, rfl⟩)
  · cases he
    exact .inl ⟨rfl, rfl⟩

/-- Settles O21: `step_keys` for the keys, and for each timer the case of `step_timers` in which it may have changed. -/
theorem ticksLeaveTimersAndKeys : Obligations.TicksLeaveTimersAndKeys := by
  intro s t h
  refine ⟨keyDown_eq_of_keys_eq (step_keys h), ?_⟩
  rcases step_timers h with ⟨hdt, hst⟩ | ⟨w, x, hw, hd, hst⟩ | ⟨w, x, hw, hd, hdt⟩
  · exact ⟨(absurd hdt ·), (absurd hst ·)⟩
  · exact ⟨fun _ => ⟨w, x, hw, hd⟩, (absurd hst ·)⟩
  · exact ⟨(absurd hdt ·), fun _ => ⟨w, x, hw, hd⟩⟩

end Sys2Proof.Machine
end

section
/-! PROOFS. LD Vx,nn (42 R140): the primary nibble a word keeps under the mask of its row, then what a write of one
register leaves unchanged. -/

namespace Sys2Proof

/-- A word masked by 0xF000 keeps its primary nibble, so the match of a row with that mask fixes it (30 R80). -/
theorem op_ofWord_of_mask {w matched : Word} (h : w &&& 0xF000 = matched) :
    (Fields.ofWord w).op = (Fields.ofWord matched).op := by
  have hmask : (0xF000 : Word).extractLsb' 12 4 = 0xF := by decide
  simp only [Fields.ofWord]
  rw [← h, BitVec.extractLsb'_and, hmask, Laws.nibble_and_ones]

end Sys2Proof

namespace Sys2Proof.Machine

open Sys2Proof

theorem getReg_setReg_same (s : State) (x : Nibble) (b : Byte) : (s.setReg x b).getReg x = b := by
  rw [getReg_setReg, if_pos rfl]

theorem regsKeptExcept_setReg (s : State) (x : Nibble) (b : Byte) : RegsKeptExcept [x] s (s.setReg x b) := by
  intro r hr
  rw [getReg_setReg, if_neg (List.ne_of_not_mem_cons hr)]

theorem frame_setReg (s : State) (x : Nibble) (b : Byte) : Frame [.v] s (s.setReg x b) := by
  intro p hp
  cases p with
  | v => exact absurd (List.mem_singleton_self _) hp
  | mem => exact byteAt_setReg s x b
  | disp => exact fun _ => rfl
  | keys => exact keyDown_setReg s x b
  | pc | index | dt | st | stack | fault | diagLog | draws | config => rfl

/-- The row 6xnn of 30 R80: its words have the primary nibble 6, which the first level of the selection takes. -/
theorem selectedBy_ldImm : SelectedBy 0xF000 0x6000 (fun f => .ldImm f.x f.nn) := by
  intro w hw
  have hop : (Fields.ofWord w).op = 0x6 := op_ofWord_of_mask hw
  simp [decodeWord, Fields.select, hop]

/-- Settles O40: the row's words by `selectedBy_ldImm`, and the next state is the one register write. -/
theorem loadImmediateSetsOneRegister : Obligations.LoadImmediateSetsOneRegister :=
  ⟨selectedBy_ldImm, fun x nn s =>
    ⟨s.setReg x nn, rfl, getReg_setReg_same s x nn, regsKeptExcept_setReg s x nn, frame_setReg s x nn⟩⟩

end Sys2Proof.Machine
end

section
/-! PROOFS. The two answers of Reset (60 R237; 70 R261): the largest ROM ends at the last byte of memory, and what
`State.construct` makes of a ROM on either side of that bound. -/

namespace Sys2Proof.Machine

open Sys2Proof

/-- The bytes of memory from LOAD_BASE on, which are the room a ROM has. -/
theorem memSize_lt_add_loadBase_iff (n : Nat) : memSize < n + loadBase ↔ 3584 < n := by
  unfold memSize loadBase
  omega

theorem construct_of_fits (c : Config) (draws : Nat) {rom : List Byte} (h : rom.length ≤ 3584) :
    State.construct c draws rom =
      .ok { State.reset with config := c, draws := draws, mem := Memory.writeBytes c [] loadBase rom } :=
  if_neg ((memSize_lt_add_loadBase_iff _).not.mpr h.not_gt)

theorem construct_of_oversized (c : Config) (draws : Nat) {rom : List Byte} (h : 3584 < rom.length) :
    State.construct c draws rom = .error (.oversizedROM rom.length) :=
  if_pos ((memSize_lt_add_loadBase_iff _).mpr h)

/-- Settles O3: the two sides of the bound by `construct_of_fits` and `construct_of_oversized`. -/
theorem resetRejectsExactlyOversizedRoms : Obligations.ResetRejectsExactlyOversizedRoms :=
  fun c draws _ => ⟨fun h => ⟨_, construct_of_fits c draws h⟩, construct_of_oversized c draws⟩

end Sys2Proof.Machine
end

section
/-! PROOFS. The machine's invariant: what Reset makes meets it, every tick and every host event keeps it, so it holds
of every state a session reaches (10 R27, R31; 20 R50; 70 R276). -/

namespace Sys2Proof.Machine

open Sys2Proof

/-! ### Reset -/

theorem stateReset_eq_construct : State.construct Config.default 0 [] = .ok State.reset := rfl

/-- The one state Reset can make, and that its ROM ends inside memory. -/
theorem construct_eq_ok {c : Config} {draws : Nat} {rom : List Byte} {s : State}
    (h : State.construct c draws rom = .ok s) :
    loadBase + rom.length ≤ memSize ∧
      s = { State.reset with config := c, draws := draws, mem := Memory.writeBytes c [] loadBase rom } := by
  rcases Nat.lt_or_ge 3584 rom.length with hlong | hfits
  · rw [construct_of_oversized c draws hlong] at h
    cases h
  · rw [construct_of_fits c draws hfits] at h
    cases h
    exact ⟨Nat.add_comm _ _ ▸ Nat.not_lt.mp ((memSize_lt_add_loadBase_iff _).not.mpr hfits.not_gt), rfl⟩

theorem MachineInv.ofConstruct {c : Config} {draws : Nat} {rom : List Byte} {s : State}
    (legal : c.wellFormed = true) (h : State.construct c draws rom = .ok s) : MachineInv s := by
  obtain ⟨hfits, rfl⟩ := construct_eq_ok h
  exact {
    configLegal := legal
    memCanonical := Memory.writeBytes_wf rom (Memory.wf_nil c) hfits
    stackBounded := Nat.zero_le _
    stackEntries := fun _ hmem => nomatch hmem
    pcBounded := (by decide : (0x200 : Addr).toNat ≤ 0x10FE) }

/-- Settles O4: both sides compute to the same record. -/
theorem stateResetIsEmptyRomReset : Obligations.StateResetIsEmptyRomReset :=
  stateReset_eq_construct

/-- Settles O28: `State.reset` is what Reset makes of an empty ROM. -/
theorem resetMeetsTheInvariant : Obligations.ResetMeetsTheInvariant :=
  .ofConstruct (by decide) stateReset_eq_construct

/-! ### Ticks -/

section
variable {s t : State}

theorem MachineInv.setFault (inv : MachineInv s) (r : FaultRecord) : MachineInv (s.setFault r) :=
  ⟨inv.configLegal, inv.memCanonical, inv.stackBounded, inv.stackEntries, inv.pcBounded⟩

theorem MachineInv.addDiag (inv : MachineInv s) (d : DiagRecord) : MachineInv (s.addDiag d) :=
  ⟨inv.configLegal, inv.memCanonical, inv.stackBounded, inv.stackEntries, inv.pcBounded⟩

/-- After the advance of a tick that fetched a word, `pc` is an address a CALL may push. -/
theorem returnAddr_advance {w : Word} (hw : Fetches s w) : ReturnAddr s.advance.pc := by
  obtain ⟨-, heven, hpc, -⟩ := hw
  have hadd : s.advance.pc.toNat = s.pc.toNat + 2 := by
    rw [advance_pc]
    bv_omega
  unfold ReturnAddr
  omega

theorem MachineInv.advance (inv : MachineInv s) {w : Word} (hw : Fetches s w) : MachineInv s.advance := by
  obtain ⟨-, -, hle⟩ := returnAddr_advance hw
  exact ⟨inv.configLegal, inv.memCanonical, inv.stackBounded, inv.stackEntries, by omega⟩

/-- An instruction run at a return address keeps the invariant. -/
theorem MachineInv.ofExecOutcome (inv : MachineInv s) (hret : ReturnAddr s.pc) (h : ExecOutcome s t) :
    MachineInv t := by
  cases h with
  | faulted r latched => exact latched ▸ inv.setFault r
  | completed config keys diagLog fault mem stack pc =>
    refine ⟨config ▸ inv.configLegal, ?_, ?_, ?_, ?_⟩
    · rw [config]
      rcases mem with hm | ⟨bs, hfits, hm⟩ <;> rw [hm]
      · exact inv.memCanonical
      · exact Memory.writeBytes_wf bs inv.memCanonical hfits
    · have hbound := inv.stackBounded
      rw [config]
      rcases stack with hs | ⟨hs, hroom⟩ | ⟨a, hs⟩ <;> simp only [State.sp, hs, List.length_cons] at *
      · exact hbound
      · exact hroom
      · omega
    · have hentries := inv.stackEntries
      rcases stack with hs | ⟨hs, -⟩ | ⟨a, hs⟩
      · exact hs ▸ hentries
      · exact hs ▸ List.forall_mem_cons.mpr ⟨hret, hentries⟩
      · exact fun b hb => hentries b (hs ▸ List.mem_cons_of_mem a hb)
    · obtain ⟨-, hlow, hhigh⟩ := hret
      rcases pc with hp | hp | hp | hp | hp
      · exact hp ▸ inv.pcBounded
      · rw [hp]
        bv_omega
      · rw [hp]
        bv_omega
      · obtain ⟨-, -, hle⟩ := inv.stackEntries _ hp
        omega
      · exact hp

end

theorem MachineInv.step {s t : State} (inv : MachineInv s) (h : step s = .next t) : MachineInv t := by
  rcases step_next_cases h with ⟨r, -, rfl⟩ | ⟨w, i, hw, -, he⟩ | ⟨w, u, hw, -, he⟩
  · exact inv.setFault r
  · exact (inv.advance hw).ofExecOutcome (returnAddr_advance hw) (exec_outcome i s.advance t he)
  · cases he
    exact (inv.advance hw).addDiag _

/-- Settles O29, by the three ends of a tick. -/
theorem everyTickKeepsTheInvariant : Obligations.EveryTickKeepsTheInvariant :=
  fun _ _ inv h => inv.step h

/-! ### Sessions -/

/-- The only state SetKey can answer. -/
theorem setKey_eq_ok {s t : State} {k : Nat} {down : Bool} (h : s.setKey k down = .ok t) :
    t = { s with keys := s.keys.setIfInBounds k down } := by
  unfold State.setKey at h
  split at h <;> cases h
  rfl

theorem MachineInv.applyEvent {e : HostEvent} {s t : State} (inv : MachineInv s) (h : applyEvent e s = .ok t) :
    MachineInv t := by
  cases e with
  | setKey k down =>
    rw [setKey_eq_ok h]
    exact ⟨inv.configLegal, inv.memCanonical, inv.stackBounded, inv.stackEntries, inv.pcBounded⟩
  | timerDecrement =>
    cases h
    exact ⟨inv.configLegal, inv.memCanonical, inv.stackBounded, inv.stackEntries, inv.pcBounded⟩
  | reset rom => exact .ofConstruct inv.configLegal h

/-- Settles O30, by induction on the session. -/
theorem everySessionStateMeetsTheInvariant : Obligations.EverySessionStateMeetsTheInvariant := by
  intro s hs
  induction hs with
  | constructed c draws rom s legal made => exact .ofConstruct legal made
  | moved s t _ move inv =>
    cases move with
    | tick answers => exact inv.step answers
    | host e applied => exact inv.applyEvent applied

/-! ### The canonical form of memory -/

section
variable {c : Config} {k : Nat} {b : Byte} {m m' : Memory}

/-- Below a canonical memory's first cell every byte has its reset value. -/
theorem Memory.read_of_lt_head (h : Memory.wf c ((k, b) :: m) = true) {a : Nat} (ha : a < k) :
    Memory.read c ((k, b) :: m) a = Memory.resetByte c a := by
  obtain ⟨hsorted, -⟩ := (Memory.wf_iff c _).mp h
  refine Memory.read_of_below c _ a (List.forall_mem_cons.mpr ⟨ha, fun q hq => ?_⟩)
  exact Nat.lt_trans ha (List.rel_of_pairwise_cons hsorted hq)

/-- A canonical memory's first cell holds another byte than reset left there. -/
theorem Memory.head_ne_resetByte (h : Memory.wf c ((k, b) :: m) = true) :
    Memory.read c ((k, b) :: m) k ≠ Memory.resetByte c k := by
  rw [Memory.read, if_pos rfl]
  exact (((Memory.wf_iff c _).mp h).2 (k, b) List.mem_cons_self).2

/-- Canonical memories that read alike have no cell before each other's first. -/
theorem Memory.head_le_head {k' : Nat} {b' : Byte} (h : Memory.wf c ((k, b) :: m) = true)
    (h' : Memory.wf c ((k', b') :: m') = true)
    (alike : ∀ a, Memory.read c ((k, b) :: m) a = Memory.read c ((k', b') :: m') a) : k ≤ k' := by
  by_contra hlt
  exact Memory.head_ne_resetByte h' (alike k' ▸ Memory.read_of_lt_head h (by omega))

/-- The rest of a canonical memory, read by way of the whole: the first cell's address is listed nowhere else. -/
theorem Memory.read_tail (h : Memory.wf c ((k, b) :: m) = true) (a : Nat) :
    Memory.read c m a = if a = k then Memory.resetByte c a else Memory.read c ((k, b) :: m) a := by
  obtain ⟨hsorted, -⟩ := (Memory.wf_iff c _).mp h
  split_ifs with ha
  · exact Memory.read_of_below c m a fun q hq => ha ▸ List.rel_of_pairwise_cons hsorted hq
  · rw [Memory.read, if_neg ha]

end

/-- Settles O31, by induction on the first memory: the first cells agree, and so do the rests. -/
theorem canonicalMemoriesThatReadAlikeAreEqual : Obligations.CanonicalMemoriesThatReadAlikeAreEqual := by
  intro c m
  induction m with
  | nil =>
    rintro (_ | ⟨⟨k', b'⟩, m'⟩) - h' alike
    · rfl
    · exact absurd (alike k').symm (Memory.head_ne_resetByte h')
  | cons p m ih =>
    obtain ⟨k, b⟩ := p
    rintro (_ | ⟨⟨k', b'⟩, m'⟩) h h' alike
    · exact absurd (alike k) (Memory.head_ne_resetByte h)
    · obtain rfl : k = k' :=
        Nat.le_antisymm (Memory.head_le_head h h' alike) (Memory.head_le_head h' h fun a => (alike a).symm)
      obtain rfl : b = b' := by simpa [Memory.read] using alike k
      have rests : ∀ a, Memory.read c m a = Memory.read c m' a := fun a => by
        rw [Memory.read_tail h, Memory.read_tail h', alike]
      rw [ih m' (Memory.wf_tail h) (Memory.wf_tail h') rests]

end Sys2Proof.Machine
end

section
/-! PROOFS. The decoder against the encoder and the opcode map (30 R76, R78, R80, R85): decoding an instruction's
word, the word of the instruction a word selects, and the words that select none. -/

namespace Sys2Proof

/-! ### Decoding an instruction's word -/

/-- By the format of the instruction's word (30 R73): its own fields select it. -/
theorem decodeWord_encode (i : Instr) : decodeWord (encode i) = .ok i := by
  cases i with
  | jp nnn | call nnn | ldI nnn | jpV0 nnn => simp [encode, decodeWord, Fields.select]
  | seImm x nn | sneImm x nn | ldImm x nn | addImm x nn | rnd x nn => simp [encode, decodeWord, Fields.select]
  | seReg x y | sneReg x y | drw x y n => simp [encode, decodeWord, Fields.select]
  | cls | ret => rfl
  | ldReg x y | orReg x y | andReg x y | xorReg x y | addReg x y | sub x y | subn x y | shr x | shl x =>
    simp [encode, decodeWord, Fields.select, selectGroup8]
  | skp x | sknp x => simp [encode, decodeWord, Fields.select, selectGroupE]
  | ldVxDT x | ldVxK x | ldDTVx x | ldSTVx x | addI x | ldF x | ldB x | storeRegs x | loadRegs x =>
    simp [encode, decodeWord, Fields.select, selectGroupF]

/-- Two bytes are decoded as their word, whatever follows them. -/
theorem decodeBytes_of_decodeWord {w : Word} {i : Instr} (h : decodeWord w = .ok i) (rest : List Byte) :
    decodeBytes (highByte w :: lowByte w :: rest) = .ok (i, rest) := by
  rw [decodeBytes, wordOfBytes_bytes, h]

/-- Settles O9: the word by `decodeWord_encode`, its bytes by `decodeBytes_of_decodeWord`. -/
theorem decodeEncodeRoundTrip : Obligations.DecodeEncodeRoundTrip :=
  fun i => ⟨decodeWord_encode i, decodeBytes_of_decodeWord (decodeWord_encode i)⟩

/-! ### The word of the instruction a word selects -/

/-- The instruction's own word is `w` with the bits the instruction ignores cleared (30 R78). -/
def EncodesTo (i : Instr) (w : Word) : Prop :=
  encode i = w &&& ~~~i.ignoredBits

section
variable {w : Word} {i : Instr}

theorem EncodesTo.ofIgnoresNone (he : encode i = w) (hi : i.ignoredBits = 0) : EncodesTo i w := by
  have hall : ~~~(0 : Word) = BitVec.allOnes 16 := rfl
  rw [EncodesTo, he, hi, hall, BitVec.and_allOnes]

/-- A row of format Z: `x` is ignored. -/
theorem EncodesTo.ofIgnoresX (he : encode i = wordXI (Fields.ofWord w).op 0 (Fields.ofWord w).nn)
    (hi : ~~~i.ignoredBits = wordXI 0xF 0 0xFF) : EncodesTo i w := by
  have hall : (0xFF : Byte) = BitVec.allOnes 8 := rfl
  have hx : (Fields.ofWord w).x &&& 0 = 0 := BitVec.and_zero
  have hw := Laws.wordXI_and (Fields.ofWord w).op (Fields.ofWord w).x (Fields.ofWord w).nn 0xF 0 0xFF
  rw [wordXI_ofWord, Laws.nibble_and_ones, hx, hall, BitVec.and_allOnes] at hw
  rw [EncodesTo, he, hi, hall, hw]

/-- A row of the formats XY, XYS or XYN: of `y` and `n` the bits in `k` and `j` are kept. -/
theorem EncodesTo.ofKeepsYN (k j : Nibble)
    (he : encode i = wordXYN (Fields.ofWord w).op (Fields.ofWord w).x ((Fields.ofWord w).y &&& k)
      ((Fields.ofWord w).n &&& j))
    (hi : ~~~i.ignoredBits = wordXYN 0xF 0xF k j) : EncodesTo i w := by
  have hw := Laws.wordXYN_and (Fields.ofWord w).op (Fields.ofWord w).x (Fields.ofWord w).y (Fields.ofWord w).n
    0xF 0xF k j
  rw [wordXYN_ofWord, Laws.nibble_and_ones, Laws.nibble_and_ones] at hw
  rw [EncodesTo, he, hi, hw]

/-- A shift ignores `y`. -/
theorem EncodesTo.ofIgnoresY {n : Nibble} (hn : (Fields.ofWord w).n = n)
    (he : encode i = wordXYN (Fields.ofWord w).op (Fields.ofWord w).x 0 n) (hi : i.ignoredBits = 0x00F0) :
    EncodesTo i w := by
  refine .ofKeepsYN 0 0xF ?_ (hi ▸ by decide)
  have hy : (Fields.ofWord w).y &&& 0 = 0 := BitVec.and_zero
  rw [he, hn, Laws.nibble_and_ones, hy]

/-- A register skip ignores `n`. -/
theorem EncodesTo.ofIgnoresN
    (he : encode i = wordXYN (Fields.ofWord w).op (Fields.ofWord w).x (Fields.ofWord w).y 0)
    (hi : i.ignoredBits = 0x000F) : EncodesTo i w := by
  refine .ofKeepsYN 0xF 0 ?_ (hi ▸ by decide)
  have hn : (Fields.ofWord w).n &&& 0 = 0 := BitVec.and_zero
  rw [he, Laws.nibble_and_ones, hn]

theorem encodesTo_of_selectGroup0 (hop : (Fields.ofWord w).op = 0x0) (h : selectGroup0 (Fields.ofWord w) = .ok i) :
    EncodesTo i w := by
  unfold selectGroup0 at h
  split_ifs at h with hE0 hEE <;> cases h
  · exact .ofIgnoresX (by rw [hop, hE0, encode]) rfl
  · exact .ofIgnoresX (by rw [hop, hEE, encode]) rfl

theorem encodesTo_of_selectGroup8 (hop : (Fields.ofWord w).op = 0x8) (h : selectGroup8 (Fields.ofWord w) = .ok i) :
    EncodesTo i w := by
  have hw := wordXYN_ofWord w
  unfold selectGroup8 at h
  split_ifs at h with hn hn hn hn hn hn hshr hn hshl <;> cases h
  pick_goal 9
  · exact .ofIgnoresY hshl (by rw [hop, encode]) rfl
  pick_goal 7
  · exact .ofIgnoresY hshr (by rw [hop, encode]) rfl
  all_goals exact .ofIgnoresNone (by rw [encode, ← hop, ← hn, hw]) rfl

theorem encodesTo_of_selectGroupE (hop : (Fields.ofWord w).op = 0xE) (h : selectGroupE (Fields.ofWord w) = .ok i) :
    EncodesTo i w := by
  have hw := wordXI_ofWord w
  unfold selectGroupE at h
  split_ifs at h with hnn hnn <;> cases h
  all_goals exact .ofIgnoresNone (by rw [encode, ← hop, ← hnn, hw]) rfl

theorem encodesTo_of_selectGroupF (hop : (Fields.ofWord w).op = 0xF) (h : selectGroupF (Fields.ofWord w) = .ok i) :
    EncodesTo i w := by
  have hw := wordXI_ofWord w
  unfold selectGroupF at h
  split_ifs at h with hnn hnn hnn hnn hnn hnn hnn hnn hnn <;> cases h
  all_goals exact .ofIgnoresNone (by rw [encode, ← hop, ← hnn, hw]) rfl

theorem nibble_cases (a : Nibble) :
    a = 0x0 ∨ a = 0x1 ∨ a = 0x2 ∨ a = 0x3 ∨ a = 0x4 ∨ a = 0x5 ∨ a = 0x6 ∨ a = 0x7 ∨ a = 0x8 ∨ a = 0x9 ∨ a = 0xA ∨
      a = 0xB ∨ a = 0xC ∨ a = 0xD ∨ a = 0xE ∨ a = 0xF := by
  revert a
  decide

/-- The first level of the selection (40 R107): a row of its own, or a group of the second level. -/
theorem decodeWord_cases (w : Word) :
    (∃ i, decodeWord w = .ok i ∧ EncodesTo i w) ∨
      ((Fields.ofWord w).op = 0x0 ∧ decodeWord w = selectGroup0 (Fields.ofWord w)) ∨
      ((Fields.ofWord w).op = 0x8 ∧ decodeWord w = selectGroup8 (Fields.ofWord w)) ∨
      ((Fields.ofWord w).op = 0xE ∧ decodeWord w = selectGroupE (Fields.ofWord w)) ∨
      ((Fields.ofWord w).op = 0xF ∧ decodeWord w = selectGroupF (Fields.ofWord w)) := by
  generalize hd : decodeWord w = d
  rcases nibble_cases (Fields.ofWord w).op with
      hop | hop | hop | hop | hop | hop | hop | hop | hop | hop | hop | hop | hop | hop | hop | hop <;>
    simp [decodeWord, Fields.select, hop] at hd <;> subst hd
  · exact .inr (.inl ⟨hop, rfl⟩)
  iterate 2 exact .inl ⟨_, rfl, .ofIgnoresNone (by rw [encode, ← hop, wordA_ofWord]) rfl⟩
  iterate 2 exact .inl ⟨_, rfl, .ofIgnoresNone (by rw [encode, ← hop, wordXI_ofWord]) rfl⟩
  · exact .inl ⟨_, rfl, .ofIgnoresN (by rw [encode, hop]) rfl⟩
  iterate 2 exact .inl ⟨_, rfl, .ofIgnoresNone (by rw [encode, ← hop, wordXI_ofWord]) rfl⟩
  · exact .inr (.inr (.inl ⟨hop, rfl⟩))
  · exact .inl ⟨_, rfl, .ofIgnoresN (by rw [encode, hop]) rfl⟩
  iterate 2 exact .inl ⟨_, rfl, .ofIgnoresNone (by rw [encode, ← hop, wordA_ofWord]) rfl⟩
  · exact .inl ⟨_, rfl, .ofIgnoresNone (by rw [encode, ← hop, wordXI_ofWord]) rfl⟩
  · exact .inl ⟨_, rfl, .ofIgnoresNone (by rw [encode, ← hop, wordXYN_ofWord]) rfl⟩
  · exact .inr (.inr (.inr (.inl ⟨hop, rfl⟩)))
  · exact .inr (.inr (.inr (.inr ⟨hop, rfl⟩)))

theorem encodesTo_of_decodeWord (h : decodeWord w = .ok i) : EncodesTo i w := by
  rcases decodeWord_cases w with ⟨j, hj, he⟩ | ⟨hop, hg⟩ | ⟨hop, hg⟩ | ⟨hop, hg⟩ | ⟨hop, hg⟩
  · cases h.symm.trans hj
    exact he
  · exact encodesTo_of_selectGroup0 hop (hg ▸ h)
  · exact encodesTo_of_selectGroup8 hop (hg ▸ h)
  · exact encodesTo_of_selectGroupE hop (hg ▸ h)
  · exact encodesTo_of_selectGroupF hop (hg ▸ h)

end

/-- Every row of the opcode map: its words' fixed bits, and its ignored bits outside them (30 R78, R80). -/
theorem encoding_statement (i : Instr) : Laws.Encoding.Statement i := by
  cases i with
  | cls => exact Laws.Encoding.cls
  | ret => exact Laws.Encoding.ret
  | jp nnn => exact Laws.Encoding.jp nnn
  | call nnn => exact Laws.Encoding.call nnn
  | seImm x nn => exact Laws.Encoding.seImm x nn
  | sneImm x nn => exact Laws.Encoding.sneImm x nn
  | seReg x y => exact Laws.Encoding.seReg x y
  | ldImm x nn => exact Laws.Encoding.ldImm x nn
  | addImm x nn => exact Laws.Encoding.addImm x nn
  | ldReg x y => exact Laws.Encoding.ldReg x y
  | orReg x y => exact Laws.Encoding.orReg x y
  | andReg x y => exact Laws.Encoding.andReg x y
  | xorReg x y => exact Laws.Encoding.xorReg x y
  | addReg x y => exact Laws.Encoding.addReg x y
  | sub x y => exact Laws.Encoding.sub x y
  | shr x => exact Laws.Encoding.shr x
  | subn x y => exact Laws.Encoding.subn x y
  | shl x => exact Laws.Encoding.shl x
  | sneReg x y => exact Laws.Encoding.sneReg x y
  | ldI nnn => exact Laws.Encoding.ldI nnn
  | jpV0 nnn => exact Laws.Encoding.jpV0 nnn
  | rnd x nn => exact Laws.Encoding.rnd x nn
  | drw x y n => exact Laws.Encoding.drw x y n
  | skp x => exact Laws.Encoding.skp x
  | sknp x => exact Laws.Encoding.sknp x
  | ldVxDT x => exact Laws.Encoding.ldVxDT x
  | ldVxK x => exact Laws.Encoding.ldVxK x
  | ldDTVx x => exact Laws.Encoding.ldDTVx x
  | ldSTVx x => exact Laws.Encoding.ldSTVx x
  | addI x => exact Laws.Encoding.addI x
  | ldF x => exact Laws.Encoding.ldF x
  | ldB x => exact Laws.Encoding.ldB x
  | storeRegs x => exact Laws.Encoding.storeRegs x
  | loadRegs x => exact Laws.Encoding.loadRegs x

/-- The ignored bits lie outside the mask, so a word and its instruction's word agree under the mask. -/
theorem EncodesTo.and_mask {w : Word} {i : Instr} (h : EncodesTo i w) : w &&& i.mask = i.matchBits := by
  obtain ⟨hmatch, -, hdisjoint⟩ := encoding_statement i
  have hmask : ~~~i.ignoredBits &&& i.mask = i.mask := by
    ext k hk
    have hbit : (i.mask &&& i.ignoredBits)[k] = (0 : Word)[k] := by rw [hdisjoint]
    simpa using hbit
  rw [← hmatch, h, BitVec.and_assoc, hmask]

/-- Settles O10: the instruction's word by `encodesTo_of_decodeWord`, and the mask from it. -/
theorem decodeFollowsOpcodeMap : Obligations.DecodeFollowsOpcodeMap :=
  fun _ _ h => ⟨(encodesTo_of_decodeWord h).and_mask, encodesTo_of_decodeWord h⟩

/-! ### The words that select nothing -/

section
variable {f : Fields} {u : Unknown}

theorem selectGroup0_eq_error : selectGroup0 f = .error u ↔ f.nn ∉ [0xE0, 0xEE] ∧ u = ⟨0x0, f.nn⟩ := by
  unfold selectGroup0
  split_ifs <;> simp_all [eq_comm]

theorem selectGroupE_eq_error : selectGroupE f = .error u ↔ f.nn ∉ [0x9E, 0xA1] ∧ u = ⟨0xE, f.nn⟩ := by
  unfold selectGroupE
  split_ifs <;> simp_all [eq_comm]

theorem selectGroupF_eq_error :
    selectGroupF f = .error u ↔
      f.nn ∉ [0x07, 0x0A, 0x15, 0x18, 0x1E, 0x29, 0x33, 0x55, 0x65] ∧ u = ⟨0xF, f.nn⟩ := by
  unfold selectGroupF
  split_ifs with h1 h2 h3 h4 h5 h6 h7 h8 h9
  pick_goal 10
  · simpa [eq_comm (b := u)] using fun _ => ⟨h1, h2, h3, h4, h5, h6, h7, h8, h9⟩
  all_goals simp [*]

theorem selectGroup8_eq_error :
    selectGroup8 f = .error u ↔ f.n ∈ [0x8, 0x9, 0xA, 0xB, 0xC, 0xD, 0xF] ∧ u = ⟨0x8, f.n.setWidth 8⟩ := by
  have hn : ∀ n : Nibble,
      n ∈ [0x8, 0x9, 0xA, 0xB, 0xC, 0xD, 0xF] ↔ n ∉ [0x0, 0x1, 0x2, 0x3, 0x4, 0x5, 0x6, 0x7, 0xE] := by
    decide
  rw [hn]
  unfold selectGroup8
  split_ifs with h1 h2 h3 h4 h5 h6 h7 h8 h9
  pick_goal 10
  · simpa [eq_comm (b := u)] using fun _ => ⟨h1, h2, h3, h4, h5, h6, h7, h8, h9⟩
  all_goals simp [*]

end

theorem decodeWord_eq_error {w : Word} {u : Unknown} :
    decodeWord w = .error u ↔
      ((Fields.ofWord w).op = 0x0 ∧ selectGroup0 (Fields.ofWord w) = .error u) ∨
        ((Fields.ofWord w).op = 0x8 ∧ selectGroup8 (Fields.ofWord w) = .error u) ∨
        ((Fields.ofWord w).op = 0xE ∧ selectGroupE (Fields.ofWord w) = .error u) ∨
        ((Fields.ofWord w).op = 0xF ∧ selectGroupF (Fields.ofWord w) = .error u) := by
  constructor
  · intro h
    rcases decodeWord_cases w with ⟨j, hj, -⟩ | ⟨hop, hg⟩ | ⟨hop, hg⟩ | ⟨hop, hg⟩ | ⟨hop, hg⟩
    · cases h.symm.trans hj
    · exact .inl ⟨hop, hg ▸ h⟩
    · exact .inr (.inl ⟨hop, hg ▸ h⟩)
    · exact .inr (.inr (.inl ⟨hop, hg ▸ h⟩))
    · exact .inr (.inr (.inr ⟨hop, hg ▸ h⟩))
  · rintro (⟨hop, h⟩ | ⟨hop, h⟩ | ⟨hop, h⟩ | ⟨hop, h⟩) <;> simp [decodeWord, Fields.select, hop, h]

/-- Settles O11, group by group. -/
theorem unknownWordsAreExactlyR85s : Obligations.UnknownWordsAreExactlyR85s := by
  rintro w ⟨group, discriminant⟩
  rw [decodeWord_eq_error, selectGroup0_eq_error, selectGroup8_eq_error, selectGroupE_eq_error, selectGroupF_eq_error]
  simp only [Unknown.mk.injEq]
  constructor
  · rintro (⟨hop, hmem, rfl, rfl⟩ | ⟨hop, hmem, rfl, rfl⟩ | ⟨hop, hmem, rfl, rfl⟩ | ⟨hop, hmem, rfl, rfl⟩)
    · exact ⟨hop.symm, .inl ⟨rfl, rfl, hmem⟩⟩
    · exact ⟨hop.symm, .inr (.inl ⟨rfl, rfl, hmem⟩)⟩
    · exact ⟨hop.symm, .inr (.inr (.inl ⟨rfl, rfl, hmem⟩))⟩
    · exact ⟨hop.symm, .inr (.inr (.inr ⟨rfl, rfl, hmem⟩))⟩
  · rintro ⟨hop, ⟨rfl, rfl, hmem⟩ | ⟨rfl, rfl, hmem⟩ | ⟨rfl, rfl, hmem⟩ | ⟨rfl, rfl, hmem⟩⟩
    · exact .inl ⟨hop.symm, hmem, rfl, rfl⟩
    · exact .inr (.inl ⟨hop.symm, hmem, rfl, rfl⟩)
    · exact .inr (.inr (.inl ⟨hop.symm, hmem, rfl, rfl⟩))
    · exact .inr (.inr (.inr ⟨hop.symm, hmem, rfl, rfl⟩))

/-- Settles O12: seven of the words are the instructions' own, and 0000 is unknown in group 0. -/
theorem sampleWordsDecode : Obligations.SampleWordsDecode :=
  ⟨decodeWord_encode (.call 0x390), decodeWord_encode (.ldImm 0xA 0x2B), decodeWord_encode (.addReg 0xA 0xB),
    decodeWord_encode (.storeRegs 2), decodeWord_encode (.drw 0 1 0xF), decodeWord_encode (.skp 1),
    decodeWord_encode (.ldVxDT 5), decodeWord_eq_error.mpr (.inl ⟨by decide, selectGroup0_eq_error.mpr (by decide)⟩)⟩

end Sys2Proof
end

section
/-! PROOFS. Frames: how they compose, and which part each setter of the state changes. -/

namespace Sys2Proof.Machine

open Sys2Proof

theorem Part.Same.trans {p : Part} {s t u : State} (hst : p.Same s t) (htu : p.Same t u) : p.Same s u := by
  cases p with
  | v | mem | disp | keys => exact fun k => (htu k).trans (hst k)
  | pc | index | dt | st | stack | fault | diagLog | draws | config => exact Eq.trans htu hst

theorem Frame.trans {ps qs : List Part} {s t u : State} (hst : Frame ps s t) (htu : Frame qs t u) :
    Frame (ps ++ qs) s u := by
  intro p hp
  obtain ⟨hps, hqs⟩ := not_or.mp (mt List.mem_append.mpr hp)
  exact (hst p hps).trans (htu p hqs)

theorem Frame.mono {ps qs : List Part} {s t : State} (h : Frame ps s t) (hsub : ps ⊆ qs) : Frame qs s t :=
  fun p hp => h p (mt (@hsub p) hp)

section
variable (s : State)

theorem frame_setRegs (v : Vector Byte 16) : Frame [.v] s (s.setRegs v) := by
  intro p hp
  cases p <;> simp_all [Part.Same]

theorem frame_setPc (a : Addr) : Frame [.pc] s (s.setPc a) := by
  intro p hp
  cases p <;> simp_all [Part.Same]

theorem frame_setIndex (a : Addr) : Frame [.index] s (s.setIndex a) := by
  intro p hp
  cases p <;> simp_all [Part.Same]

theorem frame_setDT (b : Byte) : Frame [.dt] s (s.setDT b) := by
  intro p hp
  cases p <;> simp_all [Part.Same]

theorem frame_setST (b : Byte) : Frame [.st] s (s.setST b) := by
  intro p hp
  cases p <;> simp_all [Part.Same]

theorem frame_setStack (es : List Addr) : Frame [.stack] s (s.setStack es) := by
  intro p hp
  cases p <;> simp_all [Part.Same]

theorem frame_setDisp (d : Display) : Frame [.disp] s (s.setDisp d) := by
  intro p hp
  cases p <;> simp_all [Part.Same]

theorem frame_setFault (r : FaultRecord) : Frame [.fault] s (s.setFault r) := by
  intro p hp
  cases p <;> simp_all [Part.Same]

theorem frame_addDiag (d : DiagRecord) : Frame [.diagLog] s (s.addDiag d) := by
  intro p hp
  cases p <;> simp_all [Part.Same]

theorem frame_storeBytes (a : Nat) (bs : List Byte) : Frame [.mem] s (s.storeBytes a bs) := by
  intro p hp
  cases p <;> simp_all [Part.Same]

theorem frame_countDraw : Frame [.draws] s s.countDraw := by
  intro p hp
  cases p <;> simp_all [Part.Same]

theorem frame_advance : Frame [.pc] s s.advance :=
  frame_setPc s _

theorem frame_rewind : Frame [.pc] s s.rewind :=
  frame_setPc s _

theorem frame_skipIf (c : Bool) : Frame [.pc] s (s.skipIf c) :=
  skipIf_eq s c ▸ frame_setPc s _

theorem frame_setFlag (flag : Bool) : Frame [.v] s (s.setFlag flag) :=
  frame_setReg s flagReg _

theorem frame_setRegAndFlag (x : Nibble) (b : Byte) (flag : Bool) : Frame [.v] s (s.setRegAndFlag x b flag) :=
  ((frame_setReg s x b).trans (frame_setFlag _ flag)).mono (by simp)

end

end Sys2Proof.Machine
end

section
/-! PROOFS. The tick (40 R100 to R108; 60 R241): what it makes of a faulted core, of a fetch fault, of a word that
decodes and of one that does not; then what follows for the latch, the log and a core at rest. -/

namespace Sys2Proof.Machine

open Sys2Proof

/-! ### Fetch -/

theorem fetch_of_fetches {s : State} {w : Word} (h : Fetches s w) : s.fetch = .ok w := by
  obtain ⟨-, heven, hpc, rfl⟩ := h
  have : memSize = 4096 := rfl
  rcases fetch_cases s with ⟨hout, -⟩ | ⟨-, hodd, -⟩ | ⟨-, -, hf⟩
  · omega
  · omega
  · exact hf

theorem fetch_of_out {s : State} (h : 0xFFF < s.pc.toNat + 1) :
    s.fetch = .error (.outOfBoundsMemoryAccess .fetch s.pc (s.pc.toNat + 1)) :=
  if_pos h

theorem fetch_of_odd {s : State} (hin : s.pc.toNat + 1 ≤ 0xFFF) (hodd : s.pc.toNat % 2 = 1) :
    s.fetch = .error (.misalignedFetch s.pc) := by
  have : memSize = 4096 := rfl
  rcases fetch_cases s with ⟨hout, -⟩ | ⟨-, -, hf⟩ | ⟨-, heven, -⟩
  · omega
  · exact hf
  · omega

/-- A fetch fault carries the address of the fetch. -/
theorem instrPc_of_fetch_eq_error {s : State} {r : FaultRecord} (h : s.fetch = .error r) : r.instrPc = s.pc := by
  rcases fetch_cases s with ⟨-, hf⟩ | ⟨-, -, hf⟩ | ⟨-, -, hf⟩ <;> rw [hf] at h <;> cases h <;> rfl

/-- Settles O13: of the three ends of a fetch only the last answers a word. -/
theorem fetchedWordIsBigEndian : Obligations.FetchedWordIsBigEndian := by
  intro s w h
  rcases fetch_cases s with ⟨-, hf⟩ | ⟨-, -, hf⟩ | ⟨hpc, heven, hf⟩ <;> rw [hf] at h <;> cases h
  exact ⟨toNat_joinBytes _ _, heven, Nat.le_of_lt_succ hpc⟩

/-! ### The ends of a tick -/

theorem step_of_faulted {s : State} {r : FaultRecord} (h : s.fault = some r) : step s = .fault (.sessionOver r) := by
  simp only [step, h]

theorem step_of_fetch_eq_error {s : State} {r : FaultRecord} (hfault : s.fault = none) (h : s.fetch = .error r) :
    step s = .next (s.setFault r) := by
  simp only [step, hfault, h, raise]

theorem step_of_decodeWord_eq_ok {s : State} {w : Word} {i : Instr} (hw : Fetches s w) (hd : decodeWord w = .ok i) :
    step s = exec i s.advance := by
  simp only [step, hw.1, fetch_of_fetches hw, hd]

theorem instrAddr_advance (s : State) : s.advance.instrAddr = s.pc :=
  BitVec.add_sub_cancel s.pc 2

theorem step_of_decodeWord_eq_error {s : State} {w : Word} {u : Unknown} (hw : Fetches s w)
    (hd : decodeWord w = .error u) :
    step s = .next (s.advance.addDiag (.unknownSecondaryOpcode w s.pc u.group u.discriminant)) := by
  simp only [step, hw.1, fetch_of_fetches hw, hd, execUnknown, instrAddr_advance]

/-- Settles O14: the advance is `pc + 2`. -/
theorem stepRunsDecodedInstruction : Obligations.StepRunsDecodedInstruction :=
  fun _ _ _ hw hd => step_of_decodeWord_eq_ok hw hd

/-- Settles O15: the next state is the advance and one log entry. -/
theorem unknownWordIsDiagnosedNoOp : Obligations.UnknownWordIsDiagnosedNoOp :=
  fun s _ _ hw hd => ⟨_, step_of_decodeWord_eq_error hw hd, rfl, rfl, (frame_advance s).trans (frame_addDiag _ _)⟩

/-- Settles O16: in either case the next state is the latched one. -/
theorem fetchFaultsKeepEverything : Obligations.FetchFaultsKeepEverything :=
  fun s hfault =>
    ⟨fun hout => ⟨_, step_of_fetch_eq_error hfault (fetch_of_out hout), rfl, frame_setFault s _⟩,
      fun hin hodd => ⟨_, step_of_fetch_eq_error hfault (fetch_of_odd hin hodd), rfl, frame_setFault s _⟩⟩

/-- Settles O17, by the first end of a tick. -/
theorem faultedCoreTakesNoTick : Obligations.FaultedCoreTakesNoTick :=
  fun _ _ => step_of_faulted

/-! ### The latch and the log -/

/-- Settles O18: a fault at fetch latches on the state as it was, one in the execute stage on the advanced state;
the other ends of a tick leave the latch empty. -/
theorem faultsArePrecise : Obligations.FaultsArePrecise := by
  intro s t r h hr
  rcases step_next_cases h with ⟨r', hf, rfl⟩ | ⟨w, i, hw, -, he⟩ | ⟨w, u, hw, -, he⟩
  · obtain rfl : r' = r := Option.some.inj hr
    exact ⟨instrPc_of_fetch_eq_error hf, (frame_setFault s r').mono (by simp), .inl ⟨rfl, r', hf⟩⟩
  · cases exec_outcome i s.advance t he with
    | faulted r' latched address =>
      subst latched
      obtain rfl : r' = r := Option.some.inj hr
      exact ⟨address.trans (instrAddr_advance s), ((frame_advance s).trans (frame_setFault _ r')).mono (by simp),
        .inr ⟨rfl, w, fetch_of_fetches hw⟩⟩
    | completed config keys diagLog fault =>
      obtain ⟨hnone, -⟩ := hw
      rw [fault, advance_fault, hnone] at hr
      cases hr
  · cases he
    obtain ⟨hnone, -⟩ := hw
    cases hr.symm.trans hnone

theorem exec_diagLog {i : Instr} {s t : State} (h : exec i s = .next t) : t.diagLog = s.diagLog := by
  cases exec_outcome i s t h with
  | faulted r latched => rw [latched, setFault_diagLog]
  | completed config keys diagLog => exact diagLog

/-- Settles O22: only the end of a tick that logs an unknown word touches the log. -/
theorem diagLogOnlyGrows : Obligations.DiagLogOnlyGrows := by
  intro s t h
  rcases step_next_cases h with ⟨r, -, rfl⟩ | ⟨w, i, -, -, he⟩ | ⟨w, u, hw, hd, -⟩
  · exact .inl rfl
  · exact .inl ((exec_diagLog he).trans (advance_diagLog s))
  · cases h.symm.trans (step_of_decodeWord_eq_error hw hd)
    exact .inr ⟨w, u, hw, hd, rfl⟩

/-! ### Ticks that leave the state as it is -/

/-- The word of a jump to an address (41 R122). -/
theorem encode_jp_setWidth {a : Addr} (h : a.toNat ≤ 0xFFF) : encode (.jp (a.setWidth 12)) = 0x1000 ||| a := by
  have hor : 4096 + a.toNat = 4096 ||| a.toNat := Nat.two_pow_add_eq_or_of_lt (i := 12) (Nat.lt_succ_of_le h) 1
  apply BitVec.eq_of_toNat_eq
  simp only [encode, wordA, toNat_joinNibbleImm, BitVec.toNat_setWidth, BitVec.toNat_or]
  change 1 * 4096 + a.toNat % 4096 = 4096 ||| a.toNat
  omega

theorem zextAddr_setWidth {a : Addr} (h : a.toNat ≤ 0xFFF) : zextAddr (a.setWidth 12) = a := by
  apply BitVec.eq_of_toNat_eq
  simp only [zextAddr, BitVec.toNat_setWidth]
  omega

/-- Settles O32: the jump undoes the advance. -/
theorem coreAtRestStays : Obligations.CoreAtRestStays := by
  rintro s ⟨hfault, heven, hpc, hword⟩
  have hle : s.pc.toNat ≤ 0xFFF := by omega
  have hd : decodeWord (0x1000 ||| s.pc) = .ok (.jp (s.pc.setWidth 12)) := encode_jp_setWidth hle ▸ decodeWord_encode _
  have hexec : exec (.jp (s.pc.setWidth 12)) s.advance = .next (s.advance.setPc (zextAddr (s.pc.setWidth 12))) := rfl
  rw [step_of_decodeWord_eq_ok ⟨hfault, heven, hpc, hword⟩ hd, hexec, zextAddr_setWidth hle]
  rfl

theorem rewind_advance (s : State) : s.advance.rewind = s := by
  have hpc : s.pc + 2 - 2 = s.pc := BitVec.add_sub_cancel s.pc 2
  rw [State.rewind, advance_pc, hpc]
  rfl

theorem exec_ldVxK_of_no_key {s : State} (x : Nibble) (h : ∀ k ≤ 15, s.keyDown k = false) :
    exec (.ldVxK x) s = .next s.rewind := by
  have hnone : s.leastKey = none := (leastKey_eq_none s).mpr fun k hk => h k (Nat.le_of_lt_succ hk)
  simp only [exec, execLdVxK, hnone]

/-- Settles O59: the rewind undoes the advance. -/
theorem keyWaitTickChangesNothing : Obligations.KeyWaitTickChangesNothing := by
  intro s w x hw hd hkeys
  rw [step_of_decodeWord_eq_ok hw hd, exec_ldVxK_of_no_key (s := s.advance) x hkeys, rewind_advance]

/-! ### Stored words that are fetched -/

/-- The word at an address after a store there of at least two bytes (20 R53). -/
theorem wordAt_storeBytes (s : State) (a : Nat) (hi lo : Byte) (bs : List Byte)
    (canonical : Memory.wf s.config s.mem = true) (fits : a + (bs.length + 2) ≤ memSize) :
    (s.storeBytes a (hi :: lo :: bs)).wordAt a = wordOfBytes hi lo := by
  simp [State.wordAt, byteAt_storeBytes s a (hi :: lo :: bs) canonical (by simpa using fits)]

theorem decodeWord_of_decodeTableWord {w : Nat} {i : Instr} (h : decodeTableWord 16 w = some i) :
    decodeWord (BitVec.ofNat 16 (w % 2 ^ 16)) = .ok i := by
  rw [decodeTableWord, decodeBytes, wordOfBytes_bytes] at h
  cases hd : decodeWord (BitVec.ofNat 16 (w % 2 ^ 16)) with
  | ok j =>
    rw [hd] at h
    exact congrArg _ (Option.some.inj h)
  | error u =>
    rw [hd] at h
    cases h

/-- Settles O26: the two placed bytes are the word the fetch reads. -/
theorem placedWordIsTheNextToRun : Obligations.PlacedWordIsTheNextToRun := by
  intro s w i hfault heven hpc canonical hd
  have : memSize = 4096 := rfl
  have hword : (s.withFetchWord 16 w).wordAt s.pc.toNat = BitVec.ofNat 16 (w % 2 ^ 16) := by
    rw [State.withFetchWord, wordAt_storeBytes s _ _ _ [] canonical (by simp; omega), wordOfBytes_bytes]
  exact step_of_decodeWord_eq_ok ⟨hfault, heven, hpc, hword⟩ (decodeWord_of_decodeTableWord hd)

end Sys2Proof.Machine
end

section
/-! PROOFS. What an instruction can do, said once over all of them as a table of the parts each may write and a
table of the faults each may take (10 R22 to R33; 60 R231); then what follows for registers, stack, display, memory,
`I`, the count of random bytes and the latch. -/

namespace Sys2Proof.Machine

open Sys2Proof

/-! ### The two tables -/

/-- The parts an instruction that takes no fault may change. -/
def Instr.writes : Instr → List Part
  | .cls => [.disp]
  | .ret | .call _ => [.pc, .stack]
  | .jp _ | .jpV0 _ | .seImm _ _ | .sneImm _ _ | .seReg _ _ | .sneReg _ _ | .skp _ | .sknp _ => [.pc]
  | .ldImm _ _ | .addImm _ _ | .ldReg _ _ | .orReg _ _ | .andReg _ _ | .xorReg _ _ | .addReg _ _ | .sub _ _ | .shr _
  | .subn _ _ | .shl _ | .ldVxDT _ | .loadRegs _ => [.v]
  | .rnd _ _ => [.v, .draws]
  | .ldVxK _ => [.v, .pc]
  | .drw _ _ _ => [.disp, .v]
  | .ldDTVx _ => [.dt]
  | .ldSTVx _ => [.st]
  | .ldI _ | .addI _ | .ldF _ => [.index]
  | .ldB _ | .storeRegs _ => [.mem]

/-- The instruction takes the fault `r` in state `s`, on the check of the operation it names. -/
def Instr.TakesFault (i : Instr) (s : State) (r : FaultRecord) : Prop :=
  match i with
  | .ret => s.pop = .error r
  | .call _ => s.push s.pc = .error r
  | .drw _ _ n => s.spanFault n.toNat = some r
  | .ldB _ => s.spanFault 3 = some r
  | .storeRegs x | .loadRegs x => s.spanFault (x.toNat + 1) = some r
  | .skp x | .sknp x => 15 < (s.getReg x).toNat ∧ r = .keyIndexOutOfRange s.instrAddr (s.getReg x)
  | _ => False

/-- What an instruction can do: take one of its faults, or change no part but those it may write. -/
inductive ExecEffect (i : Instr) (s t : State) : Prop where
  | faulted (r : FaultRecord) (takes : Instr.TakesFault i s r) (latched : t = s.setFault r)
  | completed (frame : Frame (Instr.writes i) s t)

/-- An indexed access: its fault, or the operation. -/
theorem guardSpan_next_cases {len : Nat} {s t u : State} (h : guardSpan len s (.next u) = .next t) :
    (∃ r, s.spanFault len = some r ∧ t = s.setFault r) ∨ t = u := by
  rcases guardSpan_cases len s (.next u) with ⟨-, hg⟩ | ⟨hout, hg⟩ <;> rw [hg] at h <;> cases h
  · exact .inr rfl
  · exact .inl ⟨_, (spanFault_eq_some s len _).mpr ⟨hout, rfl⟩, rfl⟩

section
variable {i : Instr} {s t u : State}

theorem ExecEffect.ofGuardSpan {len : Nat} (h : guardSpan len s (.next u) = .next t)
    (takes : ∀ r, s.spanFault len = some r → Instr.TakesFault i s r) (frame : Frame (Instr.writes i) s u) :
    ExecEffect i s t := by
  rcases guardSpan_next_cases h with ⟨r, hr, rfl⟩ | rfl
  · exact .faulted r (takes r hr) rfl
  · exact .completed frame

theorem ExecEffect.ofSkipOnKey {x : Nibble} {wanted : Bool} (h : skipOnKey x wanted s = .next t)
    (takes : ∀ r, 15 < (s.getReg x).toNat ∧ r = .keyIndexOutOfRange s.instrAddr (s.getReg x) → Instr.TakesFault i s r)
    (writes : Instr.writes i = [.pc]) : ExecEffect i s t := by
  rcases skipOnKey_cases x wanted s with ⟨hkey, hk⟩ | ⟨-, hk⟩ <;> rw [hk] at h <;> cases h
  · exact .faulted _ (takes _ ⟨hkey, rfl⟩) rfl
  · exact .completed (writes ▸ frame_skipIf s _)

theorem exec_effect (h : exec i s = .next t) : ExecEffect i s t := by
  cases i with
  | cls => cases h; exact .completed (frame_setDisp s _)
  | ret =>
    simp only [exec, execRet] at h
    rcases pop_cases s with ⟨-, hp⟩ | ⟨a, rest, -, hp⟩ <;> rw [hp] at h <;> cases h
    · exact .faulted _ hp rfl
    · exact .completed (((frame_setStack s rest).trans (frame_setPc _ a)).mono (by simp [Instr.writes]))
  | call nnn =>
    simp only [exec, execCall] at h
    rcases push_cases s s.pc with ⟨-, hp⟩ | ⟨-, hp⟩ <;> rw [hp] at h <;> cases h
    · exact .faulted _ hp rfl
    · exact .completed (((frame_setStack s _).trans (frame_setPc _ _)).mono (by simp [Instr.writes]))
  | jp nnn | jpV0 nnn => cases h; exact .completed (frame_setPc s _)
  | seImm x b | sneImm x b | seReg x b | sneReg x b => cases h; exact .completed (frame_skipIf s _)
  | skp x | sknp x => exact .ofSkipOnKey h (fun _ => id) rfl
  | ldImm x b | addImm x b | ldReg x b | orReg x b | andReg x b | xorReg x b =>
    cases h; exact .completed (frame_setReg s x _)
  | ldVxDT x => cases h; exact .completed (frame_setReg s x _)
  | addReg x b | sub x b | subn x b => cases h; exact .completed (frame_setRegAndFlag s x _ _)
  | shr x | shl x => cases h; exact .completed (frame_setRegAndFlag s x _ _)
  | rnd x b => cases h; exact .completed ((frame_setReg s x _).trans (frame_countDraw _))
  | ldVxK x =>
    simp only [exec, execLdVxK] at h
    split at h <;> cases h
    · exact .completed ((frame_setReg s x _).mono (by simp [Instr.writes]))
    · exact .completed ((frame_rewind s).mono (by simp [Instr.writes]))
  | ldDTVx x => cases h; exact .completed (frame_setDT s _)
  | ldSTVx x => cases h; exact .completed (frame_setST s _)
  | ldI x | addI x | ldF x => cases h; exact .completed (frame_setIndex s _)
  | drw x y n => exact .ofGuardSpan h (fun _ => id) ((frame_setDisp s _).trans (frame_setFlag _ _))
  | ldB x | storeRegs x => exact .ofGuardSpan h (fun _ => id) (frame_storeBytes s _ _)
  | loadRegs x =>
    have hspan : guardSpan (x.toNat + 1) s (.next (s.setRegs (s.regsLoaded x))) = .next t := h
    exact .ofGuardSpan hspan (fun _ => id) (frame_setRegs s _)

theorem fault_not_mem_writes (i : Instr) : .fault ∉ Instr.writes i := by
  cases i <;> simp [Instr.writes]

/-- A part other than the latch is kept by an instruction that does not list it as written. -/
theorem exec_same {p : Part} (h : exec i s = .next t) (hfault : p ≠ .fault) (hp : p ∉ Instr.writes i) :
    p.Same s t := by
  cases exec_effect h with
  | faulted r _ latched => exact latched ▸ frame_setFault s r p (by simpa using hfault)
  | completed frame => exact frame p hp

theorem mem_writes_of_exec {p : Part} (h : exec i s = .next t) (hfault : p ≠ .fault) (hne : ¬ p.Same s t) :
    p ∈ Instr.writes i :=
  not_not.mp fun hp => hne (exec_same h hfault hp)

end

/-! ### Every instruction answers -/

theorem guardSpan_answers (len : Nat) (s u : State) : ∃ t, guardSpan len s (.next u) = .next t := by
  rcases guardSpan_cases len s (.next u) with ⟨-, hg⟩ | ⟨-, hg⟩ <;> exact ⟨_, hg⟩

theorem skipOnKey_answers (x : Nibble) (wanted : Bool) (s : State) : ∃ t, skipOnKey x wanted s = .next t := by
  rcases skipOnKey_cases x wanted s with ⟨-, hk⟩ | ⟨-, hk⟩ <;> exact ⟨_, hk⟩

/-- Settles O20, instruction by instruction: those with a check answer on either side of it. -/
theorem everyInstructionAnswersNext : Obligations.EveryInstructionAnswersNext := by
  intro i s
  cases i with
  | ret =>
    simp only [exec, execRet]
    rcases pop_cases s with ⟨-, hp⟩ | ⟨a, rest, -, hp⟩ <;> rw [hp] <;> exact ⟨_, rfl⟩
  | call nnn =>
    simp only [exec, execCall]
    rcases push_cases s s.pc with ⟨-, hp⟩ | ⟨-, hp⟩ <;> rw [hp] <;> exact ⟨_, rfl⟩
  | ldVxK x =>
    simp only [exec, execLdVxK]
    split <;> exact ⟨_, rfl⟩
  | skp x | sknp x => exact skipOnKey_answers x _ s
  | drw x y n => exact guardSpan_answers n.toNat s _
  | ldB x => exact guardSpan_answers 3 s _
  | storeRegs x | loadRegs x => exact guardSpan_answers (x.toNat + 1) s _
  | _ => exact ⟨_, rfl⟩

/-! ### Faults -/

/-- The fault of an indexed access of `last + 1` bytes, with the record's address said from the first byte (20 R52).
-/
theorem spanFault_succ_eq_some {s : State} {last : Nat} {r : FaultRecord} (h : s.spanFault (last + 1) = some r) :
    0xFFF < s.index.toNat + last ∧ r = .outOfBoundsMemoryAccess .execute (s.pc - 2) (s.index.toNat + last) := by
  obtain ⟨⟨-, hout⟩, rfl⟩ := (spanFault_eq_some s _ r).mp h
  exact ⟨Nat.lt_of_succ_lt_succ hout, rfl⟩

/-- Settles O19: the cause of a latched record is the check of the instruction that took it. -/
theorem onlyListedInstructionsFault : Obligations.OnlyListedInstructionsFault := by
  intro i s t r hnone h hr
  cases exec_effect h with
  | completed frame =>
    have hkept : t.fault = s.fault := frame .fault (fault_not_mem_writes i)
    cases hr.symm.trans (hkept.trans hnone)
  | faulted r' takes latched =>
    subst latched
    obtain rfl : r' = r := Option.some.inj hr
    cases i with
    | ret =>
      rcases pop_cases s with ⟨hs, hp⟩ | ⟨a, rest, -, hp⟩ <;> cases hp.symm.trans takes
      exact .inl ⟨rfl, List.length_eq_zero_iff.mpr hs, rfl⟩
    | call nnn =>
      rcases push_cases s s.pc with ⟨hs, hp⟩ | ⟨-, hp⟩ <;> cases hp.symm.trans takes
      exact .inr (.inl ⟨⟨nnn, rfl⟩, hs, rfl⟩)
    | drw x y n =>
      obtain ⟨⟨hlen, hout⟩, rfl⟩ := (spanFault_eq_some s n.toNat r').mp takes
      exact .inr (.inr (.inl ⟨x, y, n, rfl, hlen, Nat.le_sub_one_of_lt hout, rfl⟩))
    | ldB x =>
      obtain ⟨hout, rfl⟩ := spanFault_succ_eq_some takes
      exact .inr (.inr (.inr (.inl ⟨⟨x, rfl⟩, hout, rfl⟩)))
    | storeRegs x =>
      obtain ⟨hout, rfl⟩ := spanFault_succ_eq_some takes
      exact .inr (.inr (.inr (.inr (.inl ⟨x, .inl rfl, hout, rfl⟩))))
    | loadRegs x =>
      obtain ⟨hout, rfl⟩ := spanFault_succ_eq_some takes
      exact .inr (.inr (.inr (.inr (.inl ⟨x, .inr rfl, hout, rfl⟩))))
    | skp x =>
      obtain ⟨hkey, rfl⟩ := takes
      exact .inr (.inr (.inr (.inr (.inr ⟨x, .inl rfl, hkey, rfl⟩))))
    | sknp x =>
      obtain ⟨hkey, rfl⟩ := takes
      exact .inr (.inr (.inr (.inr (.inr ⟨x, .inr rfl, hkey, rfl⟩))))
    | _ => exact takes.elim

/-! ### Who may write what -/

section
variable {i : Instr}

theorem draws_mem_writes (h : .draws ∈ Instr.writes i) : ∃ x nn, i = .rnd x nn := by
  cases i <;> simp [Instr.writes] at h ⊢

theorem stack_mem_writes (h : .stack ∈ Instr.writes i) : i = .ret ∨ ∃ nnn, i = .call nnn := by
  cases i <;> simp [Instr.writes] at h ⊢

theorem disp_mem_writes (h : .disp ∈ Instr.writes i) : i = .cls ∨ ∃ x y n, i = .drw x y n := by
  cases i <;> simp [Instr.writes] at h ⊢

theorem mem_mem_writes (h : .mem ∈ Instr.writes i) : ∃ x, i = .ldB x ∨ i = .storeRegs x := by
  cases i <;> simp [Instr.writes] at h ⊢

theorem index_mem_writes (h : .index ∈ Instr.writes i) : (∃ nnn, i = .ldI nnn) ∨ ∃ x, i = .addI x ∨ i = .ldF x := by
  cases i <;> simp [Instr.writes] at h ⊢

theorem config_not_mem_writes (i : Instr) : .config ∉ Instr.writes i := by
  cases i <;> simp [Instr.writes]

end

/-- Settles O23: RND counts one, and no other instruction lists the count as written. -/
theorem onlyRndConsumesRandomBytes : Obligations.OnlyRndConsumesRandomBytes := by
  intro i s t h
  constructor
  · rintro ⟨x, nn, rfl⟩
    cases h
    rfl
  · intro hother
    exact exec_same (p := .draws) h Part.noConfusion (mt draws_mem_writes hother)

/-- Settles O25: a part that changed is one the instruction lists as written. -/
theorem onlyListedInstructionsWriteState : Obligations.OnlyListedInstructionsWriteState :=
  fun i _ _ h =>
    ⟨fun hne => stack_mem_writes (mem_writes_of_exec h Part.noConfusion hne),
      fun ⟨k, hne⟩ => disp_mem_writes (mem_writes_of_exec h Part.noConfusion fun hsame => hne (hsame k)),
      fun ⟨a, hne⟩ => mem_mem_writes (mem_writes_of_exec h Part.noConfusion fun hsame => hne (hsame a)),
      fun hne => index_mem_writes (mem_writes_of_exec h Part.noConfusion hne),
      exec_same (p := .config) h Part.noConfusion (config_not_mem_writes i)⟩

theorem regsKeptExcept_setRegAndFlag (s : State) (x : Nibble) (b : Byte) (flag : Bool) :
    RegsKeptExcept [x, 0xF] s (s.setRegAndFlag x b flag) := by
  intro r hr
  obtain ⟨hx, hF⟩ : r ≠ x ∧ r ≠ flagReg := by simpa [flagReg] using hr
  rw [getReg_setRegAndFlag, if_neg hF, if_neg hx]

/-- A register an instruction does not list as written keeps its value (10 R22, R23). -/
theorem exec_getReg {i : Instr} {s t : State} {r : Nibble} (h : exec i s = .next t) (hr : ¬ Instr.writesReg i r) :
    t.getReg r = s.getReg r := by
  cases i with
  | ldImm x b | addImm x b | ldReg x b | orReg x b | andReg x b | xorReg x b | rnd x b =>
    cases h; exact regsKeptExcept_setReg s x _ r (mt List.mem_singleton.mp hr)
  | ldVxDT x => cases h; exact regsKeptExcept_setReg s x _ r (mt List.mem_singleton.mp hr)
  | ldVxK x =>
    simp only [exec, execLdVxK] at h
    split at h <;> cases h
    · exact regsKeptExcept_setReg s x _ r (mt List.mem_singleton.mp hr)
    · exact getReg_rewind s r
  | addReg x b | sub x b | subn x b =>
    cases h; exact regsKeptExcept_setRegAndFlag s x _ _ r (by simpa [Instr.writesReg] using hr)
  | shr x | shl x =>
    cases h; exact regsKeptExcept_setRegAndFlag s x _ _ r (by simpa [Instr.writesReg] using hr)
  | drw x y n =>
    rcases guardSpan_next_cases h with ⟨f, -, rfl⟩ | rfl
    · exact getReg_setFault s f r
    · exact regsKeptExcept_setReg _ flagReg _ r (mt List.mem_singleton.mp hr)
  | loadRegs x =>
    have hspan : guardSpan (x.toNat + 1) s (.next (s.setRegs (s.regsLoaded x))) = .next t := h
    rcases guardSpan_next_cases hspan with ⟨f, -, rfl⟩ | rfl
    · exact getReg_setFault s f r
    · exact (getReg_setRegs_regsLoaded s x r).trans (if_neg hr)
  | _ => exact exec_same (p := .v) h Part.noConfusion (by simp [Instr.writes]) r

/-- Settles O24, by `exec_getReg`. -/
theorem onlyListedRegistersAreWritten : Obligations.OnlyListedRegistersAreWritten :=
  fun _ _ _ h _ hne => not_not.mp fun hr => hne (exec_getReg h hr)

end Sys2Proof.Machine
end

section
/-! PROOFS. Control transfer (41 R120 to R130), the keypad and timer operations (45 R210 to R216), and the answer of
each: the next state is one or two setters of the state, whose frames are known. -/

namespace Sys2Proof.Machine

open Sys2Proof

/-! ### Subroutines -/

theorem exec_ret_of_cons {s : State} {a : Addr} {rest : List Addr} (h : s.stack = a :: rest) :
    exec .ret s = .next ((s.setStack rest).setPc a) := by
  simp only [exec, execRet, State.pop, h]

theorem exec_ret_of_nil {s : State} (h : s.stack = []) :
    exec .ret s = .next (s.setFault (.stackUnderflow (s.pc - 2))) := by
  simp only [exec, execRet, State.pop, h, raise, State.instrAddr]

theorem exec_call_of_room {s : State} (nnn : Imm12) (h : s.sp < s.config.stackDepth) :
    exec (.call nnn) s = .next ((s.setStack (s.pc :: s.stack)).setPc (zextAddr nnn)) := by
  simp only [exec, execCall, State.push, if_neg (Nat.not_le.mpr h)]

theorem exec_call_of_full {s : State} (nnn : Imm12) (h : s.config.stackDepth ≤ s.sp) :
    exec (.call nnn) s = .next (s.setFault (.stackOverflow (s.pc - 2))) := by
  simp only [exec, execCall, State.push, if_pos h, raise, State.instrAddr]

theorem toNat_zextAddr (nnn : Imm12) : (zextAddr nnn).toNat = nnn.toNat :=
  BitVec.toNat_setWidth_of_le (by decide)

/-- Settles O33: RET on either side of the empty stack. -/
theorem retPopsOrUnderflows : Obligations.RetPopsOrUnderflows :=
  fun s =>
    ⟨fun a rest h =>
        ⟨_, exec_ret_of_cons h, rfl, rfl, ((frame_setStack s rest).trans (frame_setPc _ a)).mono (by simp)⟩,
      fun h => ⟨_, exec_ret_of_nil h, rfl, frame_setFault s _⟩⟩

/-- Settles O34: the next state is the one write of `pc`. -/
theorem jumpSetsPc : Obligations.JumpSetsPc :=
  fun nnn s => ⟨s.setPc (zextAddr nnn), rfl, toNat_zextAddr nnn, frame_setPc s _⟩

/-- The row 2nnn of 30 R80: its words have the primary nibble 2, which the first level of the selection takes. -/
theorem selectedBy_call : SelectedBy 0xF000 0x2000 (fun f => .call f.nnn) := by
  intro w hw
  have hop : (Fields.ofWord w).op = 0x2 := op_ofWord_of_mask hw
  simp [decodeWord, Fields.select, hop]

/-- Settles O35: the row's words by `selectedBy_call`, then CALL on either side of the full stack. -/
theorem callPushesOrOverflows : Obligations.CallPushesOrOverflows :=
  ⟨selectedBy_call, fun nnn s =>
    ⟨fun h => ⟨_, exec_call_of_room nnn h, toNat_zextAddr nnn, rfl,
        ((frame_setStack s _).trans (frame_setPc _ _)).mono (by simp)⟩,
      fun h => ⟨_, exec_call_of_full nnn h, rfl, frame_setFault s _⟩⟩⟩

/-- Settles O36: the RET takes away the one entry the CALL put on the stack. -/
theorem retUndoesCall : Obligations.RetUndoesCall := by
  intro nnn s t hroom h
  cases h.symm.trans (exec_call_of_room nnn hroom)
  exact ⟨_, exec_ret_of_cons rfl, rfl⟩

/-! ### Jumps and skips -/

/-- Settles O39: the sum of a byte and 12 bits has 16 (decision D29). -/
theorem computedJumpAddsV0 : Obligations.ComputedJumpAddsV0 := by
  intro nnn s
  refine ⟨s.setPc (zextReg (s.getReg 0) + zextAddr nnn), rfl, ?_, frame_setPc s _⟩
  have hreg : (zextReg (s.getReg 0)).toNat = (s.getReg 0).toNat := BitVec.toNat_setWidth_of_le (by decide)
  have hsum : (s.getReg 0).toNat + nnn.toNat < 2 ^ 16 := by omega
  rw [setPc_pc, BitVec.toNat_add_of_lt (by rwa [hreg, toNat_zextAddr]), hreg, toNat_zextAddr]

/-- `pc` after a skip on equality (41 R124, R126). -/
theorem skipIf_beq_pc (s : State) (a b : Byte) : (s.skipIf (a == b)).pc = if a = b then s.pc + 2 else s.pc := by
  simp

/-- `pc` after a skip on inequality (41 R125, R127). -/
theorem skipIf_bne_pc (s : State) (a b : Byte) : (s.skipIf (a != b)).pc = if a = b then s.pc else s.pc + 2 := by
  by_cases h : a = b <;> simp [h]

/-- Settles O37: both next states are the skip. -/
theorem immediateSkips : Obligations.ImmediateSkips :=
  fun x nn s =>
    ⟨⟨s.skipIf (s.getReg x == nn), rfl, skipIf_beq_pc s _ nn, frame_skipIf s _⟩,
      ⟨s.skipIf (s.getReg x != nn), rfl, skipIf_bne_pc s _ nn, frame_skipIf s _⟩⟩

/-- Settles O38: both next states are the skip. -/
theorem registerSkips : Obligations.RegisterSkips :=
  fun x y s =>
    ⟨⟨s.skipIf (s.getReg x == s.getReg y), rfl, skipIf_beq_pc s _ _, frame_skipIf s _⟩,
      ⟨s.skipIf (s.getReg x != s.getReg y), rfl, skipIf_bne_pc s _ _, frame_skipIf s _⟩⟩

/-! ### Keys -/

theorem skipOnKey_of_key {s : State} {x : Nibble} (wanted : Bool) (h : (s.getReg x).toNat ≤ 15) :
    skipOnKey x wanted s = .next (s.skipIf (s.keyDown (s.getReg x).toNat == wanted)) :=
  if_neg (Nat.not_lt.mpr h)

theorem skipOnKey_of_bad_key {s : State} {x : Nibble} (wanted : Bool) (h : 15 < (s.getReg x).toNat) :
    skipOnKey x wanted s = .next (s.setFault (.keyIndexOutOfRange (s.pc - 2) (s.getReg x))) :=
  if_pos h

theorem skipIf_beq_true_pc (s : State) (b : Bool) :
    (s.skipIf (b == true)).pc = if b = true then s.pc + 2 else s.pc := by
  simp

theorem skipIf_beq_false_pc (s : State) (b : Bool) :
    (s.skipIf (b == false)).pc = if b = true then s.pc else s.pc + 2 := by
  cases b <;> simp

/-- Settles O57: both skips on either side of key number 15. -/
theorem keySkipsOrBadKey : Obligations.KeySkipsOrBadKey :=
  fun _ s =>
    ⟨fun h =>
        ⟨⟨_, skipOnKey_of_key true h, skipIf_beq_true_pc s _, frame_skipIf s _⟩,
          ⟨_, skipOnKey_of_key false h, skipIf_beq_false_pc s _, frame_skipIf s _⟩⟩,
      fun h =>
        ⟨⟨_, skipOnKey_of_bad_key true h, rfl, frame_setFault s _⟩,
          ⟨_, skipOnKey_of_bad_key false h, rfl, frame_setFault s _⟩⟩⟩

theorem exec_ldVxK_of_key {s : State} {k : Nat} (x : Nibble) (hk : k ≤ 15) (hdown : s.keyDown k = true)
    (hleast : ∀ j < k, s.keyDown j = false) : exec (.ldVxK x) s = .next (s.setReg x (BitVec.ofNat 8 k)) := by
  have hsome : s.leastKey = some k := (leastKey_eq_some s k).mpr ⟨Nat.lt_succ_of_le hk, hdown, hleast⟩
  simp only [exec, execLdVxK, hsome]

/-- Settles O58: the register write when a key is down, else the rewind. -/
theorem keyWaitStoresLeastKeyOrRewinds : Obligations.KeyWaitStoresLeastKeyOrRewinds := by
  intro x s
  refine ⟨fun k hk hdown hleast => ?_, fun hkeys => ⟨_, exec_ldVxK_of_no_key x hkeys, rfl, frame_rewind s⟩⟩
  refine ⟨_, exec_ldVxK_of_key x hk hdown hleast, ?_, regsKeptExcept_setReg s x _, frame_setReg s x _⟩
  rw [getReg_setReg_same]
  exact Nat.mod_eq_of_lt (by omega)

/-! ### Timers -/

/-- Settles O60: each next state is one write. -/
theorem timerMoves : Obligations.TimerMoves :=
  fun x s =>
    ⟨⟨s.setReg x s.dt, rfl, getReg_setReg_same s x _, regsKeptExcept_setReg s x _, frame_setReg s x _⟩,
      ⟨s.setDT (s.getReg x), rfl, rfl, frame_setDT s _⟩, ⟨s.setST (s.getReg x), rfl, rfl, frame_setST s _⟩⟩

end Sys2Proof.Machine
end

section
/-! PROOFS. Registers and arithmetic (42 R140 to R155) and the index register (43 R170 to R172): what the saturating
and wrapping forms and the flags are as numbers, then each operation as its register writes. -/

namespace Sys2Proof.Machine

open Sys2Proof

/-! ### Saturation, wrapping, flags -/

theorem toNat_sat8 (v : Nat) : (sat8 v).toNat = min v 255 :=
  Nat.mod_eq_of_lt (by omega)

theorem toNat_sat16 (v : Nat) : (sat16 v).toNat = min v 0xFFFF :=
  Nat.mod_eq_of_lt (by omega)

theorem toNat_wrap8 (v : Int) : ((wrap8 v).toNat : Int) = v % 256 := by
  rw [wrap8, BitVec.toNat_ofInt]
  omega

theorem flagByte_decide (p : Prop) [Decidable p] : flagByte (decide p) = if p then 1 else 0 := by
  simp only [flagByte, decide_eq_true_eq]

theorem toNat_flagByte (b : Bool) : (flagByte b).toNat = b.toNat := by
  cases b <;> rfl

theorem toNat_flagByte_lowBit (a : Byte) : (flagByte (lowBit a)).toNat = a.toNat % 2 := by
  rw [toNat_flagByte, lowBit, BitVec.getLsbD, Nat.toNat_testBit]
  omega

theorem toNat_flagByte_highBit (a : Byte) : (flagByte (highBit a)).toNat = a.toNat / 128 := by
  rw [toNat_flagByte, highBit, BitVec.getLsbD, Nat.toNat_testBit]
  omega

/-! ### One register written -/

/-- Settles O41: the register write, as a number by `toNat_sat8`. -/
theorem addImmediateSaturates : Obligations.AddImmediateSaturates :=
  fun x nn s =>
    ⟨s.setReg x (sat8 ((s.getReg x).toNat + nn.toNat)), rfl,
      (congrArg BitVec.toNat (getReg_setReg_same s x _)).trans (toNat_sat8 _), regsKeptExcept_setReg s x _,
      frame_setReg s x _⟩

/-- Settles O42: each next state is the one register write, whose bits are the operation's. -/
theorem assignAndBitwiseOperations : Obligations.AssignAndBitwiseOperations := by
  intro x y s
  refine ⟨⟨s.setReg x (s.getReg y), rfl, getReg_setReg_same s x _, ?_⟩,
    ⟨s.setReg x (s.getReg x ||| s.getReg y), rfl, fun k => ?_, ?_⟩,
    ⟨s.setReg x (s.getReg x &&& s.getReg y), rfl, fun k => ?_, ?_⟩,
    ⟨s.setReg x (s.getReg x ^^^ s.getReg y), rfl, fun k => ?_, ?_⟩⟩
  case refine_2 => rw [getReg_setReg_same, BitVec.getLsbD_or]
  case refine_4 => rw [getReg_setReg_same, BitVec.getLsbD_and]
  case refine_6 => rw [getReg_setReg_same, BitVec.getLsbD_xor]
  all_goals exact ⟨regsKeptExcept_setReg s x _, frame_setReg s x _⟩

/-- Settles O46: the register write and the count. -/
theorem randomByteIsMasked : Obligations.RandomByteIsMasked :=
  fun x nn s =>
    ⟨(s.setReg x (Config.randomByte s.draws &&& nn)).countDraw, rfl, getReg_setReg_same s x _,
      regsKeptExcept_setReg s x _, (frame_setReg s x _).trans (frame_countDraw _)⟩

/-! ### A result and a flag written -/

section
variable (s : State) (x : Nibble) (b : Byte) (flag : Bool)

theorem getReg_setRegAndFlag_flag : (s.setRegAndFlag x b flag).getReg 0xF = flagByte flag :=
  (getReg_setRegAndFlag s x b flag 0xF).trans (if_pos rfl)

theorem getReg_setRegAndFlag_same {x : Nibble} (hx : x ≠ 0xF) : (s.setRegAndFlag x b flag).getReg x = b :=
  (getReg_setRegAndFlag s x b flag x).trans ((if_neg hx).trans (if_pos rfl))

end

/-- Settles O43: the result by `toNat_sat8`, the flag by `flagByte_decide`. -/
theorem addRegisterSaturatesWithCarry : Obligations.AddRegisterSaturatesWithCarry := by
  intro x y s
  refine ⟨s.setRegAndFlag x (sat8 ((s.getReg x).toNat + (s.getReg y).toNat)) (carryOut (s.getReg x) (s.getReg y)), rfl,
    fun hx => ?_, ?_, regsKeptExcept_setRegAndFlag s x _ _, frame_setRegAndFlag s x _ _⟩
  · rw [getReg_setRegAndFlag_same s _ _ hx, toNat_sat8]
  · rw [getReg_setRegAndFlag_flag, carryOut, flagByte_decide]

/-- A next state that holds the difference of `a` and `b` in register `x` and no-borrow in `VF` (42 R149, R151). -/
theorem difference_and_noBorrow {s t : State} {x : Nibble} {a b : Byte}
    (ht : t = s.setRegAndFlag x (wrap8 (a.toNat - b.toNat)) (noBorrow a b)) :
    (x ≠ 0xF → ((t.getReg x).toNat : Int) = (a.toNat - b.toNat : Int) % 256) ∧
      t.getReg 0xF = (if b.toNat ≤ a.toNat then 1 else 0) ∧ RegsKeptExcept [x, 0xF] s t ∧ Frame [.v] s t := by
  subst ht
  refine ⟨fun hx => ?_, ?_, regsKeptExcept_setRegAndFlag s x _ _, frame_setRegAndFlag s x _ _⟩
  · rw [getReg_setRegAndFlag_same s _ _ hx, toNat_wrap8]
  · rw [getReg_setRegAndFlag_flag, noBorrow, flagByte_decide]

/-- Settles O44: the two subtractions differ in the order of their operands. -/
theorem subtractionsWrapWithNoBorrow : Obligations.SubtractionsWrapWithNoBorrow :=
  fun _ _ _ => ⟨⟨_, rfl, difference_and_noBorrow rfl⟩, ⟨_, rfl, difference_and_noBorrow rfl⟩⟩

/-- Settles O45: the result as a division or a product, the flag as the dropped bit. -/
theorem shiftsByOneIntoVF : Obligations.ShiftsByOneIntoVF := by
  intro x s
  refine ⟨⟨s.setRegAndFlag x (s.getReg x >>> 1) (lowBit (s.getReg x)), rfl, fun hx => ?_, ?_,
      regsKeptExcept_setRegAndFlag s x _ _, frame_setRegAndFlag s x _ _⟩,
    ⟨s.setRegAndFlag x (s.getReg x <<< 1) (highBit (s.getReg x)), rfl, fun hx => ?_, ?_,
      regsKeptExcept_setRegAndFlag s x _ _, frame_setRegAndFlag s x _ _⟩⟩
  · rw [getReg_setRegAndFlag_same s _ _ hx, BitVec.toNat_ushiftRight, Nat.shiftRight_eq_div_pow, Nat.pow_one]
  · rw [getReg_setRegAndFlag_flag, toNat_flagByte_lowBit]
  · rw [getReg_setRegAndFlag_same s _ _ hx, BitVec.toNat_shiftLeft, Nat.shiftLeft_eq, Nat.pow_one]
  · rw [getReg_setRegAndFlag_flag, toNat_flagByte_highBit]

/-! ### The index register -/

/-- Settles O47: the next state is the one write of `I`. -/
theorem setIndex : Obligations.SetIndex :=
  fun nnn s => ⟨s.setIndex (zextAddr nnn), rfl, toNat_zextAddr nnn, frame_setIndex s _⟩

/-- Settles O48: the write of `I`, as a number by `toNat_sat16`. -/
theorem addToIndexSaturates : Obligations.AddToIndexSaturates :=
  fun x s => ⟨s.setIndex (sat16 (s.index.toNat + (s.getReg x).toNat)), rfl, toNat_sat16 _, frame_setIndex s _⟩

/-- Settles O49: a FONT_BASE of at most 432 and 15 glyphs of 5 bytes fit in 16 bits. -/
theorem glyphAddressOfLowNibble : Obligations.GlyphAddressOfLowNibble := by
  intro x s
  refine ⟨s.setIndex (glyphAddr s.config (s.getReg x)), rfl, ?_, frame_setIndex s _⟩
  have hnibble : (s.getReg x &&& 0x0F).toNat = (s.getReg x).toNat % 16 :=
    Nat.and_two_pow_sub_one_eq_mod (s.getReg x).toNat 4
  have hbase := s.config.fontBase.isLt
  rw [setIndex_index, glyphAddr, BitVec.toNat_ofNat, hnibble]
  omega

end Sys2Proof.Machine
end

section
/-! PROOFS. The memory operations (43 R173 to R177; 20 R52, R61): an indexed access on either side of its bound,
what a store leaves in memory, and a block store read back by a block load and by a fetch. -/

namespace Sys2Proof.Machine

open Sys2Proof

/-! ### The bounds check -/

theorem guardSpan_of_fits {len : Nat} {s : State} (operation : Result)
    (h : len = 0 ∨ s.index.toNat + len ≤ memSize) : guardSpan len s operation = operation := by
  simp only [guardSpan, (spanFault_eq_none s len).mpr h]

/-- An access whose last byte, `last` bytes after the first, lies in memory runs. -/
theorem guardSpan_succ_of_le {last : Nat} {s : State} (operation : Result) (h : s.index.toNat + last ≤ 0xFFF) :
    guardSpan (last + 1) s operation = operation :=
  guardSpan_of_fits operation (.inr (Nat.succ_le_succ h))

/-- An access whose last byte lies outside memory takes its fault and changes nothing else (decision D31). -/
theorem guardSpan_succ_of_lt {last : Nat} {s : State} (operation : Result) (h : 0xFFF < s.index.toNat + last) :
    ∃ t, guardSpan (last + 1) s operation = .next t ∧
      t.fault = some (.outOfBoundsMemoryAccess .execute (s.pc - 2) (s.index.toNat + last)) ∧ Frame [.fault] s t := by
  have hsome : s.spanFault (last + 1) =
      some (.outOfBoundsMemoryAccess .execute (s.pc - 2) (s.index.toNat + last)) :=
    (spanFault_eq_some s _ _).mpr ⟨⟨Nat.succ_pos last, Nat.succ_lt_succ h⟩, rfl⟩
  refine ⟨_, ?_, rfl, frame_setFault s _⟩
  simp only [guardSpan, hsome, raise]

/-! ### Stores -/

section
variable {s : State} {a : Nat} {bs : List Byte}

/-- The `k`-th stored byte, read back. -/
theorem byteAt_storeBytes_of_getElem? (canonical : Memory.wf s.config s.mem = true)
    (fits : a + bs.length ≤ memSize) {k : Nat} {b : Byte} (hk : bs[k]? = some b) :
    (s.storeBytes a bs).byteAt (a + k) = b := by
  obtain ⟨hlt, -⟩ := List.getElem?_eq_some_iff.mp hk
  rw [byteAt_storeBytes s a bs canonical fits, if_pos (by omega), Nat.add_sub_cancel_left, hk]
  rfl

theorem bytesKeptOutside_storeBytes (canonical : Memory.wf s.config s.mem = true) (fits : a + bs.length ≤ memSize) :
    BytesKeptOutside a bs.length s (s.storeBytes a bs) := by
  intro k hk
  rw [byteAt_storeBytes s a bs canonical fits, if_neg (by omega)]

end

/-- Settles O50: the three digits by their places in `bcdDigits`. -/
theorem bcdStoredOrOutOfBounds : Obligations.BcdStoredOrOutOfBounds := by
  intro x s canonical
  refine ⟨fun hin => ?_, guardSpan_succ_of_lt _⟩
  have fits : s.index.toNat + (bcdDigits (s.getReg x)).length ≤ memSize := Nat.succ_le_succ hin
  have digit : ∀ {v : Nat}, v < 256 → (BitVec.ofNat 8 v).toNat = v := Nat.mod_eq_of_lt
  refine ⟨_, guardSpan_succ_of_le _ hin, ?_, ?_, ?_, bytesKeptOutside_storeBytes canonical fits,
    frame_storeBytes s _ _⟩
  · exact (congrArg _ (byteAt_storeBytes_of_getElem? canonical fits (k := 0) rfl)).trans (digit (by omega))
  · exact (congrArg _ (byteAt_storeBytes_of_getElem? canonical fits (k := 1) rfl)).trans (digit (by omega))
  · exact (congrArg _ (byteAt_storeBytes_of_getElem? canonical fits (k := 2) rfl)).trans (digit (by omega))

theorem exec_storeRegs_of_le {x : Nibble} {s : State} (h : s.index.toNat + x.toNat ≤ 0xFFF) :
    exec (.storeRegs x) s = .next (s.storeBytes s.index.toNat (s.regsUpTo x)) :=
  guardSpan_succ_of_le _ h

theorem exec_loadRegs_of_le {x : Nibble} {s : State} (h : s.index.toNat + x.toNat ≤ 0xFFF) :
    exec (.loadRegs x) s = .next (s.setRegs (s.regsLoaded x)) :=
  guardSpan_succ_of_le _ h

theorem regsUpTo_fits {x : Nibble} {s : State} (h : s.index.toNat + x.toNat ≤ 0xFFF) :
    s.index.toNat + (s.regsUpTo x).length ≤ memSize := by
  rw [length_regsUpTo]
  exact Nat.succ_le_succ h

/-- Every register a block store moves is read back at its address. -/
theorem byteAt_storeBytes_regsUpTo {x r : Nibble} {s : State} (canonical : Memory.wf s.config s.mem = true)
    (h : s.index.toNat + x.toNat ≤ 0xFFF) (hr : r.toNat ≤ x.toNat) :
    (s.storeBytes s.index.toNat (s.regsUpTo x)).byteAt (s.index.toNat + r.toNat) = s.getReg r :=
  byteAt_storeBytes_of_getElem? canonical (regsUpTo_fits h) (getElem_regsUpTo s x r hr)

/-- Settles O51: the stored bytes by `byteAt_storeBytes_regsUpTo`, the others and the fault by the bounds check. -/
theorem blockStoreOrOutOfBounds : Obligations.BlockStoreOrOutOfBounds := by
  intro x s canonical
  refine ⟨fun hin => ⟨_, exec_storeRegs_of_le hin, fun r => byteAt_storeBytes_regsUpTo canonical hin, ?_,
    frame_storeBytes s _ _⟩, guardSpan_succ_of_lt _⟩
  exact length_regsUpTo s x ▸ bytesKeptOutside_storeBytes canonical (regsUpTo_fits hin)

/-- Settles O52: `getReg_setRegs_regsLoaded` on either side of `x`. -/
theorem blockLoadOrOutOfBounds : Obligations.BlockLoadOrOutOfBounds := by
  intro x s
  refine ⟨fun hin => ⟨_, exec_loadRegs_of_le hin, fun r hr => ?_, fun r hr => ?_, frame_setRegs s _⟩,
    guardSpan_succ_of_lt _⟩
  · rw [getReg_setRegs_regsLoaded, if_pos hr]
  · rw [getReg_setRegs_regsLoaded, if_neg (Nat.not_le.mpr hr)]

/-- Settles O53: a register up to `x` is loaded from where it was stored, and one above `x` is in neither block. -/
theorem blockLoadUndoesBlockStore : Obligations.BlockLoadUndoesBlockStore := by
  intro x s t u canonical hin hstore hload r
  cases hstore.symm.trans (exec_storeRegs_of_le hin)
  cases hload.symm.trans (exec_loadRegs_of_le (by simpa using hin))
  rw [getReg_setRegs_regsLoaded]
  split_ifs with hr
  · exact byteAt_storeBytes_regsUpTo canonical hin hr
  · rfl

/-- Settles O27: the first two bytes of the block are the word at `I`. -/
theorem storeIsSeenByLaterFetch : Obligations.StoreIsSeenByLaterFetch := by
  intro x s t hx hin canonical h
  cases h.symm.trans (exec_storeRegs_of_le hin)
  have h0 := byteAt_storeBytes_regsUpTo (r := 0) canonical hin (Nat.zero_le _)
  have h1 := byteAt_storeBytes_regsUpTo (r := 1) canonical hin hx
  exact congrArg₂ joinBytes h0 h1

end Sys2Proof.Machine
end

section
/-! PROOFS. The display operations (44 R191 to R198): a cleared display, a drawn sprite said through the state, and
the same sprite drawn twice. -/

namespace Sys2Proof.Machine

open Sys2Proof

/-- Settles O54: the next state is the one display write. -/
theorem clearTurnsEveryCellOff : Obligations.ClearTurnsEveryCellOff :=
  fun s => ⟨s.setDisp Display.cleared, rfl, cell_cleared, frame_setDisp s _⟩

/-- The state a DRW that takes no fault answers. -/
def State.afterDraw (s : State) (x y n : Nibble) : State :=
  (s.setDisp (s.drawn x y n).1).setFlag (s.drawn x y n).2

section
variable {s : State} {x y n : Nibble}

theorem exec_drw_of_fits (h : n.toNat = 0 ∨ s.index.toNat + n.toNat - 1 ≤ 0xFFF) :
    exec (.drw x y n) s = .next (s.afterDraw x y n) := by
  have : memSize = 4096 := rfl
  exact guardSpan_of_fits _ (by omega)

/-- A cell on the screen after the draw (44 R192 to R195). -/
theorem cell_afterDraw {cx cy : Nat} (hcx : cx < 64) (hcy : cy < 32) :
    Display.cell (s.afterDraw x y n).disp (cx + cy * 64) =
      (Display.cell s.disp (cx + cy * 64) ^^ s.spriteBitAt x y n cx cy) :=
  cell_drawSprite _ _ _ _ _ cx cy hcx hcy

theorem flag_afterDraw : (s.afterDraw x y n).getReg 0xF = flagByte (s.drawn x y n).2 :=
  getReg_setReg_same _ flagReg _

/-- The collision of a draw: some ON cell on the screen lay under a 1 (44 R196). -/
theorem collision_iff :
    (s.drawn x y n).2 = true ↔
      ∃ cx cy, cx < 64 ∧ cy < 32 ∧ Display.cell s.disp (cx + cy * 64) = true ∧ s.spriteBitAt x y n cx cy = true := by
  refine (hit_drawSprite _ _ _ _ _).trans ⟨?_, ?_⟩
  · rintro ⟨cx, hcx, cy, hcy, hcell, hbit⟩
    exact ⟨cx, cy, hcx, hcy, hcell, hbit⟩
  · rintro ⟨cx, cy, hcx, hcy, hcell, hbit⟩
    exact ⟨cx, hcx, cy, hcy, hcell, hbit⟩

theorem frame_afterDraw : Frame [.v, .disp] s (s.afterDraw x y n) :=
  ((frame_setDisp s _).trans (frame_setFlag _ _)).mono (by simp)

theorem getReg_afterDraw {r : Nibble} (hr : r ≠ 0xF) : (s.afterDraw x y n).getReg r = s.getReg r :=
  regsKeptExcept_setReg _ flagReg _ r (mt List.mem_singleton.mp hr)

/-- The sprite is the same after a draw whose operands are not `VF`. -/
theorem spriteBitAt_afterDraw (hx : x ≠ 0xF) (hy : y ≠ 0xF) (cx cy : Nat) :
    (s.afterDraw x y n).spriteBitAt x y n cx cy = s.spriteBitAt x y n cx cy := by
  rw [State.spriteBitAt, getReg_afterDraw hx, getReg_afterDraw hy]
  rfl

end

/-- Settles O55: the cells by `cell_afterDraw`, the flag by `collision_iff`, the fault by the bounds check. -/
theorem drawXorsTheSpriteOrOutOfBounds : Obligations.DrawXorsTheSpriteOrOutOfBounds := by
  intro x y n s
  refine ⟨fun hin => ⟨s.afterDraw x y n, exec_drw_of_fits hin, fun cx cy => cell_afterDraw, ?_,
    regsKeptExcept_setReg _ flagReg _, frame_afterDraw⟩, fun hn hout => ?_⟩
  · rw [flag_afterDraw]
    cases hhit : (s.drawn x y n).2 with
    | true => exact .inl ⟨rfl, collision_iff.mp hhit⟩
    | false =>
      refine .inr ⟨rfl, fun cx cy hcx hcy hcell => Bool.eq_false_iff.mpr fun hbit => ?_⟩
      exact Bool.eq_false_iff.mp hhit (collision_iff.mpr ⟨cx, cy, hcx, hcy, hcell, hbit⟩)
  · obtain ⟨last, hlast⟩ := Nat.exists_eq_add_of_le' hn
    have hexec : exec (.drw x y n) s = guardSpan (last + 1) s (.next (s.afterDraw x y n)) := hlast ▸ rfl
    rw [hexec, hlast]
    rw [hlast] at hout
    exact guardSpan_succ_of_lt _ hout

/-- Displays whose cells on the screen agree are equal (10 R33). -/
theorem display_ext {d e : Display}
    (h : ∀ cx cy, cx < 64 → cy < 32 → Display.cell d (cx + cy * 64) = Display.cell e (cx + cy * 64)) : d = e := by
  ext i hi
  have hcell := h (i % 64) (i / 64) (by omega) (by omega)
  rw [show i % 64 + i / 64 * 64 = i by omega] at hcell
  simpa [Display.cell, hi] using hcell

/-- Settles O56: the second draw lays the same sprite over the first. -/
theorem drawingTwiceRestoresTheDisplay : Obligations.DrawingTwiceRestoresTheDisplay := by
  intro x y n s t u hx hy hin hst htu
  cases hst.symm.trans (exec_drw_of_fits hin)
  cases htu.symm.trans (exec_drw_of_fits (s := s.afterDraw x y n) hin)
  constructor
  · refine display_ext fun cx cy hcx hcy => ?_
    rw [cell_afterDraw hcx hcy, cell_afterDraw hcx hcy, spriteBitAt_afterDraw hx hy, Bool.xor_assoc, Bool.xor_self,
      Bool.xor_false]
  · have hflag : ∀ b, flagByte b = 1 ↔ b = true := by decide
    rw [flag_afterDraw, hflag, collision_iff]
    refine exists₂_congr fun cx cy => and_congr_right fun hcx => and_congr_right fun hcy => ?_
    rw [cell_afterDraw hcx hcy, spriteBitAt_afterDraw hx hy]
    refine and_congr_left fun hbit => ?_
    rw [hbit, Bool.xor_true, Bool.not_eq_true']

end Sys2Proof.Machine
end

section
/-! PROOFS. The host's side of the boundary (70 R262 to R272; 60 R250): the state after Reset, the two events, and
the read accessors. -/

namespace Sys2Proof.Machine

open Sys2Proof

/-! ### Reset -/

/-- Settles O1: every piece but memory, the count and the parameters is `State.reset`'s. -/
theorem resetZeroesAllButMemory : Obligations.ResetZeroesAllButMemory := by
  intro c draws rom s h
  obtain ⟨-, rfl⟩ := construct_eq_ok h
  refine ⟨fun r => ?_, rfl, rfl, rfl, rfl, cell_cleared, fun k => ?_, rfl, rfl, rfl, rfl⟩
  · simp [State.getReg, State.reset]
  · by_cases hk : k < 16 <;> simp [State.keyDown, State.reset, hk]

/-- The font's bytes, and 0 elsewhere: the font ends below LOAD_BASE, and past its 80 bytes there is none (70 R262).
-/
theorem resetByte_eq (c : Config) (a : Nat) :
    Memory.resetByte c a =
      if c.fontBase.val ≤ a ∧ a < c.fontBase.val + 80 then c.fontImage[a - c.fontBase.val]?.getD 0 else 0 := by
  have hbase := c.fontBase.isLt
  have hload : loadBase = 512 := rfl
  unfold Memory.resetByte
  by_cases hfont : c.fontBase.val ≤ a ∧ a < c.fontBase.val + 80
  · rw [if_pos hfont, if_neg (by omega), if_pos hfont.1]
  · rw [if_neg hfont]
    split_ifs with hrom hlow
    · rfl
    · rw [Vector.getElem?_eq_none (by omega)]
      rfl
    · rfl

/-- Settles O2: the ROM's bytes are the ones written, and every other byte is as reset left it. -/
theorem resetBuildsMemory : Obligations.ResetBuildsMemory := by
  intro c draws rom s h a _
  obtain ⟨hfits, rfl⟩ := construct_eq_ok h
  exact (Memory.read_writeBytes rom (Memory.wf_nil c) hfits a).trans (if_congr Iff.rfl rfl (resetByte_eq c a))

/-! ### Events -/

/-- Settles O5: the next state is the one key write. -/
theorem setKeyWritesOneKey : Obligations.SetKeyWritesOneKey := by
  intro s k down
  refine ⟨fun hk => ?_, fun hk => if_pos hk⟩
  refine ⟨{ s with keys := s.keys.setIfInBounds k down }, if_neg (Nat.not_lt.mpr hk), ?_, fun j hj => ?_, ?_⟩
  · simp [State.keyDown, Nat.lt_succ_of_le hk]
  · simp [State.keyDown, Vector.getElem?_setIfInBounds_ne (Ne.symm hj)]
  · intro p hp
    cases p with
    | keys => exact absurd (List.mem_singleton_self _) hp
    | v | mem | disp => exact fun _ => rfl
    | pc | index | dt | st | stack | fault | diagLog | draws | config => rfl

theorem toNat_countDown (b : Byte) : (countDown b).toNat = b.toNat - 1 := by
  unfold countDown
  split_ifs with hb
  · rw [hb]
    rfl
  · bv_omega

/-- Settles O6: both timers by `toNat_countDown`. -/
theorem timerDecrementCountsBothDown : Obligations.TimerDecrementCountsBothDown := by
  refine fun s => ⟨toNat_countDown s.dt, toNat_countDown s.st, fun p hp => ?_⟩
  cases p <;> simp_all [Part.Same]

/-! ### Accessors -/

/-- Settles O7: in range an accessor's check passes, out of range it refuses. -/
theorem accessorsAnswerOrRefuse : Obligations.AccessorsAnswerOrRefuse := by
  intro s
  refine ⟨fun r => ?_, fun i hi => if_pos hi, fun a ha => if_neg (Nat.not_le.mpr (Nat.lt_succ_of_le ha)),
    fun a ha => if_pos ha, fun i hi => if_neg (Nat.not_le.mpr (Nat.lt_succ_of_le hi)), fun i hi => if_pos hi,
    fun a rest h => ?_, fun h => ?_, rfl, rfl, rfl, rfl, rfl, rfl, rfl⟩
  · have hr : ¬ 15 < r.toNat := Nat.not_lt.mpr (Nat.le_of_lt_succ r.isLt)
    rw [readRegister, if_neg hr, BitVec.ofNat_toNat, BitVec.setWidth_eq]
  · simp only [readStackTop, h]
  · simp only [readStackTop, h]

end Sys2Proof.Machine
end
